-- ==== Sys2Proof/Word.lean ====
section
/-! DEFINITION. The word types of the block and the shape of a bus transaction (spec/20_memory.md R60, spec/30_encoding.md R100, R101). -/

namespace Sys2Proof

/-- The 64-bit word of every register and data path (00_scope.md R5, 10_state.md section 2). -/
abbrev Word := BitVec 64

/-- One octet of message data (00_scope.md glossary). -/
abbrev Octet := BitVec 8

/-- A 12-bit byte offset from BASE (20_memory.md R60). -/
abbrev Offset := BitVec 12

/-- The sizes a bus transaction may have, in bytes: 1, 2, 4, 8 (20_memory.md R60). -/
inductive AccessSize where
  | b1
  | b2
  | b4
  | b8
deriving DecidableEq, Repr

/-- A bus transaction `(kind, offset, size, wdata)` (20_memory.md R60).
`wdata` is "used only by a Write", so only a write carries it. -/
inductive Transaction where
  | read (offset : Offset) (size : AccessSize)
  | write (offset : Offset) (size : AccessSize) (wdata : Word)
deriving DecidableEq, Repr

/-- The two formats of 30_encoding.md section 1: a command word (R100) or a bus transaction (R101). -/
inductive Encoding where
  | cmd (word : Word)
  | bus (t : Transaction)
deriving DecidableEq, Repr

end Sys2Proof
end

