-- ==== Sys2Proof/Config.lean ====
section
/-! DEFINITION. What an implementation of the block fixes: the named parameters of spec/00_scope.md R5 to R9. -/

namespace Sys2Proof

/-- What APPEND_BITS does with more bits than the register is wide (00_scope.md R7). -/
inductive WideAppendPolicy where
  | serial
  | refuse
deriving DecidableEq, Repr

/-- The build parameters a program can see in CAP: `HAS_TABLE` (00_scope.md R6) and `WIDE_APPEND_POLICY` (R7).
They are configuration, not state (10_state.md R38); State carries them because `exec` takes only an instruction
and a state, and no step changes them (log 1, DESIGN CHOICE). -/
structure Params where
  hasTable   : Bool
  wideAppend : WideAppendPolicy
deriving DecidableEq, Repr

/-- The defaults of 00_scope.md R6 and R7: the table is built in, wide groups are serial. -/
def Params.defaults : Params := { hasTable := true, wideAppend := .serial }

/-- `MAX_WIDTH` (00_scope.md R5). -/
def Config.maxWidth : Nat := 64

/-- The window's size in bytes (00_scope.md R9). -/
def Config.windowSize : Nat := 4096

/-- Which 4 KiB page of the platform's bus the window is: the open parameter behind BASE (00_scope.md R8).
It has no body, so nothing can be proved of its value (log 2). -/
opaque Config.basePage : Nat

/-- `BASE`: "aligned to 4 KiB" (00_scope.md R8). -/
def Config.base : Nat := Config.windowSize * Config.basePage

end Sys2Proof
end

