-- ==== Sys2Proof/Machine/State.lean ====
section
/-! DEFINITION. The block's state, plain data: the record of spec/10_state.md R38 field for field, the build parameters
beside it, and the model's own two fields for the bus (pending inputs and last response). -/

namespace Sys2Proof.Machine

/-- What reaches the block from outside: a transaction (20_memory.md R60) or a pulse of the platform's reset
input (70_reset_and_hazards.md R270). -/
inductive Input where
  | access (t : Transaction)
  | reset
deriving DecidableEq, Repr

/-- The OKAY answers of 20_memory.md R60. `rdata` "is meaningful only for a Read", so the answer to a write has
none. The answer ERROR is `Fault.busError` (60_exceptions.md R250). -/
inductive Response where
  | okayRead (rdata : Word)
  | okayWrite
deriving DecidableEq, Repr

/-- The causes of a rejected command, codes 1 to 6 of 60_exceptions.md R240. -/
inductive CmdError where
  | illegalCommand
  | configInvalid
  | initValueTooWide
  | notBound
  | countRange
  | wideAppendRefused
deriving DecidableEq, Repr

/-- What the division cycle depends on: W, RF and P (42_append_octets.md; 45_table.md R202). -/
structure Divisor where
  width     : Nat
  reflected : Bool
  poly      : Word
deriving DecidableEq, Repr

structure State where
  /-- CFG.WIDTH, as stored (R23). -/
  cfgWidth   : BitVec 7
  /-- CFG.REFLECT_IO (R23). -/
  cfgReflect : Bool
  /-- POLY (R24). -/
  poly       : Word
  /-- INIT (R25). -/
  init       : Word
  /-- XOROUT (R26). -/
  xorout     : Word
  /-- DATA (R27). -/
  data       : Word
  /-- REMAINDER (R28). -/
  remainder  : Word
  /-- RESULT (R34). -/
  result     : Word
  /-- STATUS.BOUND (R28, R31). -/
  bound      : Bool
  /-- STATUS.TABLE_VALID (R31). -/
  tableValid : Bool
  /-- STATUS.ERR (R31). -/
  err        : Bool
  /-- STATUS.ERR_CODE (R31). -/
  errCode    : BitVec 4
  /-- ERR_INFO (R32). -/
  errInfo    : Word
  /-- TABLE (R35). -/
  table      : Vector Word 256
  /-- HAS_TABLE and WIDE_APPEND_POLICY: configuration, written by no step (log 1). -/
  params     : Params
  /-- The model's own: the inputs the block has not yet performed, the next one first (log 3). -/
  pending    : List Input
  /-- The model's own: the answer to the last transaction performed (log 4). -/
  response   : Option Response
deriving DecidableEq, Repr

/-- Raised by a step. -/
inductive Fault where
  /-- `raise BusError(offset)`: the transaction at `offset` is answered with ERROR, no state changes
  (20_memory.md R63), and "A model treats a bus error as a fault of the host step that issued the access"
  (60_exceptions.md R250). Raised by BUS_ERROR only. Safe: the block's state after it is the state before it. -/
  | busError (offset : Offset)
deriving DecidableEq, Repr

/-- Why the model has no meaning for an instruction. -/
inductive Refusal where
  /-- An arm of exec without a meaning yet. No arm raises it. Safe: the model stops. -/
  | notModelled (mnemonic : String)
deriving DecidableEq, Repr

/-- The state of 70_reset_and_hazards.md R270. TABLE is "unspecified; not observable" after reset: all zero here
(log 6, DESIGN CHOICE). The build parameters are the defaults (log 1); no input is pending and nothing has been
answered (logs 3 and 4, DESIGN CHOICE). -/
def State.reset : State where
  cfgWidth   := 0#7
  cfgReflect := false
  poly       := 0#64
  init       := 0#64
  xorout     := 0#64
  data       := 0#64
  remainder  := 0#64
  result     := 0#64
  bound      := false
  tableValid := false
  err        := false
  errCode    := 0#4
  errInfo    := 0#64
  table      := Vector.replicate 256 0#64
  params     := Params.defaults
  pending    := []
  response   := none

end Sys2Proof.Machine
end

