-- ==== Sys2Proof/Machine/Flags.lean ====
section
/-! DEFINITION. The words software reads from bits and fields: STATUS, CFG and CAP, and the error codes
(spec/10_state.md R23, R31, R33; 46_access_control.md R217, R219; 60_exceptions.md R240). -/

namespace Sys2Proof.Machine

/-- ERR_CODE of a cause (R240). -/
def CmdError.code (e : CmdError) : BitVec 4 :=
  match e with
  | .illegalCommand => 1#4
  | .configInvalid => 2#4
  | .initValueTooWide => 3#4
  | .notBound => 4#4
  | .countRange => 5#4
  | .wideAppendRefused => 6#4

/-- A flag as one bit. -/
def bit (b : Bool) : BitVec 1 := BitVec.ofBool b

/-- STATUS: ERR_CODE in [11:8], ERR in [2], TABLE_VALID in [1], BOUND in [0], all else 0 (R31, R219). -/
def State.statusWord (s : State) : Word :=
  (s.errCode ++ 0#5 ++ bit s.err ++ bit s.tableValid ++ bit s.bound).setWidth 64

/-- CFG: REFLECT_IO in [8], WIDTH in [6:0], all else 0 (R23, R217). -/
def State.cfgWord (s : State) : Word := (bit s.cfgReflect ++ 0#1 ++ s.cfgWidth).setWidth 64

/-- CAP: MAX_WIDTH in [15:8], WIDE_REFUSE in [1], HAS_TABLE in [0], all else 0 (R33). -/
def capWord (p : Params) : Word :=
  (BitVec.ofNat 8 Config.maxWidth ++ 0#6 ++ bit (decide (p.wideAppend = .refuse)) ++ bit p.hasTable).setWidth 64

end Sys2Proof.Machine
end

