-- ==== Sys2Proof/Syntax.lean ====
section
/-! DEFINITION. The instructions: one constructor per row of spec/opcode_table.json, in the table's order.
The first nine are the commands of the CMD format (30_encoding.md R102), the others the accesses of the BUS format (R101, R106). -/

namespace Sys2Proof

/-- The block's whole instruction set. -/
inductive Instr where
  /-- OP 0x01: construct with the model's initial value (41_params_init.md R142). -/
  | init
  /-- OP 0x02: construct with DATA as initial value (41_params_init.md R143). -/
  | initCustom
  /-- OP 0x03: append `n` octets of DATA (42_append_octets.md R163). -/
  | appendOctets (n : BitVec 7)
  /-- OP 0x04: append the low `n` bits of DATA (43_append_bits.md R180). -/
  | appendBits (n : BitVec 7)
  /-- OP 0x05: construct, then append `n` octets of DATA (44_check_compute.md R192). -/
  | compute (n : BitVec 7)
  /-- OP 0x06: reflect DATA over `n` bits into RESULT (40_reflect.md R131). -/
  | reflect (n : BitVec 7)
  /-- OP 0x07: fill the octet remainder table (45_table.md R200). -/
  | buildTable
  /-- OP 0x08: clear the error latch (46_access_control.md R222). -/
  | clearError
  /-- Any other command word (46_access_control.md R223, 30_encoding.md R104). -/
  | illegal (word : Word)
  /-- Write 0x000 (41_params_init.md R141). -/
  | wrCfg (wdata : Word)
  /-- Write 0x008 (41_params_init.md R141). -/
  | wrPoly (wdata : Word)
  /-- Write 0x010 (41_params_init.md R141). -/
  | wrInit (wdata : Word)
  /-- Write 0x018 (41_params_init.md R141). -/
  | wrXorout (wdata : Word)
  /-- Write 0x020 (46_access_control.md R215). -/
  | wrData (wdata : Word)
  /-- Write 0x028: issues the command `word` (46_access_control.md R216). -/
  | wrCmd (word : Word)
  /-- Read 0x000 (46_access_control.md R217). -/
  | rdCfg
  /-- Read 0x008 (46_access_control.md R217). -/
  | rdPoly
  /-- Read 0x010 (46_access_control.md R217). -/
  | rdInit
  /-- Read 0x018 (46_access_control.md R217). -/
  | rdXorout
  /-- Read 0x020 (46_access_control.md R217). -/
  | rdData
  /-- Read 0x028: reads 0 (46_access_control.md R218). -/
  | rdCmd
  /-- Read 0x030 (44_check_compute.md R190). -/
  | rdCheck
  /-- Read 0x038 (44_check_compute.md R191). -/
  | rdRemainder
  /-- Read 0x040 (46_access_control.md R219). -/
  | rdResult
  /-- Read 0x048 (46_access_control.md R219). -/
  | rdStatus
  /-- Read 0x050 (46_access_control.md R219). -/
  | rdErrInfo
  /-- Read 0x058 (46_access_control.md R219). -/
  | rdCap
  /-- Read 0x800 + 8*d (45_table.md R206). -/
  | rdTable (d : BitVec 8)
  /-- Any transaction the block does not accept (20_memory.md R62, R63; 46_access_control.md R220). -/
  | busError (t : Transaction)
deriving DecidableEq, Repr

end Sys2Proof
end

