-- ==== Sys2Proof/WellFormed.lean ====
section
/-! DEFINITION. When an instruction is one the decoder can give: an ILLEGAL carries a word that is no command
(spec/30_encoding.md R104), a BUS_ERROR a transaction the block does not accept (20_memory.md R62, 30_encoding.md R105).
Every operand value of the other instructions has an encoding. -/

namespace Sys2Proof

/-- The opcodes 0x01..0x08 (30_encoding.md R102). -/
def isCommandOp (op : BitVec 8) : Bool := decide (1 ≤ op.toNat ∧ op.toNat ≤ 8)

/-- The opcodes whose N field is an operand; for the others N "must be 0" (30_encoding.md R102). -/
def takesCount (op : BitVec 8) : Bool := decide (3 ≤ op.toNat ∧ op.toNat ≤ 6)

/-- The complement of the four cases of 30_encoding.md R104. -/
def legalCommandWord (w : Word) : Bool :=
  isCommandOp (w.extractLsb' 0 8) && decide (w.extractLsb' 15 49 = 0#49) &&
    (takesCount (w.extractLsb' 0 8) || decide (w.extractLsb' 8 7 = 0#7))

/-- The reserved offsets 0x060..0x7F8 (10_state.md R37). -/
def reservedOffset (o : Offset) : Bool := decide (0x060 ≤ o.toNat ∧ o.toNat ≤ 0x7F8)

/-- The offsets a write reaches: CFG, POLY, INIT, XOROUT, DATA and CMD (10_state.md section 2). -/
def writableOffset (o : Offset) : Bool := decide (o.toNat ≤ 0x028)

/-- The accesses the block answers with OKAY: size 8, aligned, mapped, and no write to a read-only
register (20_memory.md R62). -/
def acceptedAccess (t : Transaction) : Bool :=
  match t with
  | .read o size => decide (size = .b8) && decide (o.toNat % 8 = 0) && !reservedOffset o
  | .write o size _ => decide (size = .b8) && decide (o.toNat % 8 = 0) && writableOffset o

/-- An instruction the decoder can give. -/
def wellFormed (i : Instr) : Bool :=
  match i with
  | .illegal word => !legalCommandWord word
  | .busError t => !acceptedAccess t
  | .init | .initCustom | .appendOctets _ | .appendBits _ | .compute _ | .reflect _ | .buildTable
  | .clearError | .wrCfg _ | .wrPoly _ | .wrInit _ | .wrXorout _ | .wrData _ | .wrCmd _ | .rdCfg
  | .rdPoly | .rdInit | .rdXorout | .rdData | .rdCmd | .rdCheck | .rdRemainder | .rdResult
  | .rdStatus | .rdErrInfo | .rdCap | .rdTable _ => true

end Sys2Proof
end

