-- ==== Sys2Proof/Decode.lean ====
section
/-! DEFINITION. The decoder of spec/30_encoding.md R100 to R106, total on every command word and every transaction,
and the encoder from the same tables. -/

namespace Sys2Proof

/-! ### Fields of a command word (R100) -/

/-- OP, bits [7:0]. -/
def cmdOp (word : Word) : BitVec 8 := word.extractLsb' 0 8

/-- N, bits [14:8]. -/
def cmdN (word : Word) : BitVec 7 := word.extractLsb' 8 7

/-- RSVD, bits [63:15]. -/
def cmdRsvd (word : Word) : BitVec 49 := word.extractLsb' 15 49

/-- The word of a command: `OP | (n << 8)` (R107). -/
def cmdWord (op : BitVec 8) (n : BitVec 7) : Word := op.setWidth 64 ||| (n.setWidth 64 <<< 8)

/-! ### Commands -/

/-- What a command word decodes to (R106, `Command(word)`). -/
inductive Command where
  | init
  | initCustom
  | appendOctets (n : BitVec 7)
  | appendBits (n : BitVec 7)
  | compute (n : BitVec 7)
  | reflect (n : BitVec 7)
  | buildTable
  | clearError
  | illegal (word : Word)
deriving DecidableEq, Repr

/-- A command as an instruction of the table's CMD format. -/
def Command.toInstr (c : Command) : Instr :=
  match c with
  | .init => .init
  | .initCustom => .initCustom
  | .appendOctets n => .appendOctets n
  | .appendBits n => .appendBits n
  | .compute n => .compute n
  | .reflect n => .reflect n
  | .buildTable => .buildTable
  | .clearError => .clearError
  | .illegal word => .illegal word

/-- `Command(word)` of R106: the opcode map of R102, every word of R104 illegal. -/
def decodeCommand (word : Word) : Command :=
  let op := cmdOp word
  let n := cmdN word
  if cmdRsvd word ≠ 0#49 then .illegal word
  else if op = 0x03#8 then .appendOctets n
  else if op = 0x04#8 then .appendBits n
  else if op = 0x05#8 then .compute n
  else if op = 0x06#8 then .reflect n
  else if n ≠ 0#7 then .illegal word
  else if op = 0x01#8 then .init
  else if op = 0x02#8 then .initCustom
  else if op = 0x07#8 then .buildTable
  else if op = 0x08#8 then .clearError
  else .illegal word

/-! ### Transactions -/

/-- An aligned 8-byte read at `o` (R106): the registers, then the table window, else none. -/
def decodeRead (o : Offset) : Option Instr :=
  if o = 0x000#12 then some .rdCfg
  else if o = 0x008#12 then some .rdPoly
  else if o = 0x010#12 then some .rdInit
  else if o = 0x018#12 then some .rdXorout
  else if o = 0x020#12 then some .rdData
  else if o = 0x028#12 then some .rdCmd
  else if o = 0x030#12 then some .rdCheck
  else if o = 0x038#12 then some .rdRemainder
  else if o = 0x040#12 then some .rdResult
  else if o = 0x048#12 then some .rdStatus
  else if o = 0x050#12 then some .rdErrInfo
  else if o = 0x058#12 then some .rdCap
  else if 0x800 ≤ o.toNat then some (.rdTable (((o - 0x800#12) >>> 3).setWidth 8))
  else none

/-- An aligned 8-byte write of `v` at `o` (R106): the command carrier, the writable registers, else none. -/
def decodeWrite (o : Offset) (v : Word) : Option Instr :=
  if o = 0x028#12 then some (.wrCmd v)
  else if o = 0x000#12 then some (.wrCfg v)
  else if o = 0x008#12 then some (.wrPoly v)
  else if o = 0x010#12 then some (.wrInit v)
  else if o = 0x018#12 then some (.wrXorout v)
  else if o = 0x020#12 then some (.wrData v)
  else none

/-- Size 8 and OFFSET[2:0] = 0 (20_memory.md R62). -/
def alignedFull (o : Offset) (size : AccessSize) : Bool :=
  decide (size = .b8) && decide (o.extractLsb' 0 3 = 0#3)

/-- `decode(kind, offset, size, wdata)` of R106: what is not accepted is a bus error. -/
def decodeTransaction (t : Transaction) : Instr :=
  match t with
  | .read o size => if alignedFull o size then (decodeRead o).getD (.busError t) else .busError t
  | .write o size v => if alignedFull o size then (decodeWrite o v).getD (.busError t) else .busError t

/-- The decoder of both formats. -/
def decode (e : Encoding) : Instr :=
  match e with
  | .cmd word => (decodeCommand word).toInstr
  | .bus t => decodeTransaction t

/-! ### The encoder -/

/-- The encoding of an instruction: the opcode map (R102) and the register map (10_state.md section 2). -/
def encode (i : Instr) : Encoding :=
  match i with
  | .init => .cmd (cmdWord 0x01#8 0#7)
  | .initCustom => .cmd (cmdWord 0x02#8 0#7)
  | .appendOctets n => .cmd (cmdWord 0x03#8 n)
  | .appendBits n => .cmd (cmdWord 0x04#8 n)
  | .compute n => .cmd (cmdWord 0x05#8 n)
  | .reflect n => .cmd (cmdWord 0x06#8 n)
  | .buildTable => .cmd (cmdWord 0x07#8 0#7)
  | .clearError => .cmd (cmdWord 0x08#8 0#7)
  | .illegal word => .cmd word
  | .wrCfg v => .bus (.write 0x000#12 .b8 v)
  | .wrPoly v => .bus (.write 0x008#12 .b8 v)
  | .wrInit v => .bus (.write 0x010#12 .b8 v)
  | .wrXorout v => .bus (.write 0x018#12 .b8 v)
  | .wrData v => .bus (.write 0x020#12 .b8 v)
  | .wrCmd word => .bus (.write 0x028#12 .b8 word)
  | .rdCfg => .bus (.read 0x000#12 .b8)
  | .rdPoly => .bus (.read 0x008#12 .b8)
  | .rdInit => .bus (.read 0x010#12 .b8)
  | .rdXorout => .bus (.read 0x018#12 .b8)
  | .rdData => .bus (.read 0x020#12 .b8)
  | .rdCmd => .bus (.read 0x028#12 .b8)
  | .rdCheck => .bus (.read 0x030#12 .b8)
  | .rdRemainder => .bus (.read 0x038#12 .b8)
  | .rdResult => .bus (.read 0x040#12 .b8)
  | .rdStatus => .bus (.read 0x048#12 .b8)
  | .rdErrInfo => .bus (.read 0x050#12 .b8)
  | .rdCap => .bus (.read 0x058#12 .b8)
  | .rdTable d => .bus (.read (0x800#12 + (d.setWidth 12 <<< 3)) .b8)
  | .busError t => .bus t

/-! ### Encodings as numbers, and as what the host does on the bus -/

/-- The transaction of a 13-bit descriptor `{WE, OFFSET}` (R101), size 8, with `v` beside it for a write. -/
def Transaction.ofDescriptor (desc : BitVec 13) (v : Word) : Transaction :=
  if desc.getLsbD 12 then .write (desc.setWidth 12) .b8 v else .read (desc.setWidth 12) .b8

/-- The descriptor `{WE, OFFSET}` of a transaction (R101). -/
def Transaction.descriptor (t : Transaction) : BitVec 13 :=
  match t with
  | .read o _ => 0#1 ++ o
  | .write o _ _ => 1#1 ++ o

/-- How the host brings an encoding to the block: a command word is written to CMD, offset 0x028 (R100). -/
def Encoding.transaction (e : Encoding) : Transaction :=
  match e with
  | .cmd word => .write 0x028#12 .b8 word
  | .bus t => t

/-- The encoding whose bits spec/opcode_table.json numbers `w`: a BUS row has a 13-bit descriptor, two bytes
(a Write's wdata has no bits there and is 0); a CMD row is a 64-bit word (log 8). -/
def tableEncoding (nbits w : Nat) : Option Encoding :=
  if 8 < nbits ∧ nbits ≤ 16 then
    if w < 2 ^ 13 then some (.bus (.ofDescriptor (BitVec.ofNat 13 w) 0#64)) else none
  else if nbits ≤ 64 ∧ w < 2 ^ 64 then some (.cmd (BitVec.ofNat 64 w)) else none

/-- The instruction the decoder reads from a table word. -/
def decodeTableWord (nbits w : Nat) : Option Instr := (tableEncoding nbits w).map decode

end Sys2Proof
end

