-- ==== Sys2Proof/Machine/Operands.lean ====
section
/-! DEFINITION. Where a command's operand bits stand: the octet lanes of DATA and the stream order of octets and bit
groups (spec/20_memory.md R61, R64; 42_append_octets.md R161; 43_append_bits.md R180, R182). -/

namespace Sys2Proof.Machine

/-- Octet lane i of DATA, `DATA[8*i+7 : 8*i]` (R61). -/
def lane (data : Word) (i : Nat) : Octet := data.extractLsb' (8 * i) 8

/-- Bit k, in stream order, of an octet: MSB first unless reflected (R161). -/
def octetBit (reflected : Bool) (o : Octet) (k : Nat) : Bool :=
  if reflected then o.getLsbD k else o.getLsbD (7 - k)

/-- Bit k, in stream order, of the group `DATA[n-1:0]`: MSB first unless reflected (R180). -/
def groupBit (reflected : Bool) (data : Word) (n k : Nat) : Bool :=
  if reflected then data.getLsbD k else data.getLsbD (n - 1 - k)

/-- Whole octet j of the group `DATA[n-1:0]`: `DATA[n-1-8*j : n-8-8*j]`, or `DATA[8*j+7 : 8*j]` when
reflected (R182). -/
def groupOctet (reflected : Bool) (data : Word) (n j : Nat) : Octet :=
  if reflected then data.extractLsb' (8 * j) 8 else data.extractLsb' (n - 8 - 8 * j) 8

end Sys2Proof.Machine
end

