-- ==== Sys2Proof/Machine/Ops.lean ====
section
/-! DEFINITION. The operations every meaning is built from: masks and reflection (spec/40_reflect.md), the division
cycle and the octet step in both forms (42_append_octets.md, 45_table.md), the validity of a parameter set
(41_params_init.md R140), the answers on the bus, and a command's checks, its rejection into the error latch and the
return from it (60_exceptions.md R245 to R249). -/

namespace Sys2Proof.Machine

/-! ### Bit-field helpers (00_scope.md R10, 40_reflect.md R130, 41_params_init.md R140) -/

/-- `ones(w)`, "the w-bit all-ones value 2^w − 1" (R10). -/
def ones (w : Nat) : Word := BitVec.ofNat 64 (2 ^ w - 1)

/-- `fits(v, w)`: v has no 1 bit at a position >= w (R140). -/
def fits (v : Word) (w : Nat) : Bool := v &&& ~~~(ones w) == 0#64

/-- One turn of R130's loop: `if v[i] == 1: r[w-1-i] <- 1`. -/
def reflectTurn (v : Word) (w : Nat) (r : Word) (i : Nat) : Word :=
  if v.getLsbD i then r ||| (1#64 <<< (w - 1 - i)) else r

/-- `reflect(v, w)`, for 0 <= w <= 64 (R130). -/
def reflect (v : Word) (w : Nat) : Word := (List.range w).foldl (reflectTurn v w) 0#64

/-! ### The division (42_append_octets.md) -/

/-- `cycle(r, b)` (R160). -/
def cycle (D : Divisor) (r : Word) (b : Bool) : Word :=
  if D.reflected then
    if r.getLsbD 0 ^^ b then (r >>> 1) ^^^ reflect D.poly D.width else r >>> 1
  else
    if r.getLsbD (D.width - 1) ^^ b then ((r <<< 1) &&& ones D.width) ^^^ D.poly
    else (r <<< 1) &&& ones D.width

/-- `octet_step(r, o)`: eight cycles in stream order (R161). -/
def octetStep (D : Divisor) (r : Word) (o : Octet) : Word :=
  (List.range 8).foldl (fun r k => cycle D r (octetBit D.reflected o k)) r

/-- `T(d)`: the octet step from remainder 0 (45_table.md R202). -/
def tableRemainder (D : Divisor) (d : Octet) : Word := octetStep D 0#64 d

/-- `ms` of R162: the eight coefficients that retire during one octet. -/
def msByte (D : Divisor) (r : Word) : Octet :=
  if D.reflected then r.extractLsb' 0 8
  else if 8 ≤ D.width then r.extractLsb' (D.width - 8) 8
  else (r <<< (8 - D.width)).extractLsb' 0 8

/-- `ls` of R162: the rest of the remainder, moved to where it stands after the octet. -/
def lsBytes (D : Divisor) (r : Word) : Word :=
  if D.width < 8 then 0#64
  else if D.reflected then r >>> 8
  else (r <<< 8) &&& ones D.width

/-- `octet_step_bytewise(r, o)` with the table function `T` (R162). -/
def octetStepBytewise (D : Divisor) (T : Octet → Word) (r : Word) (o : Octet) : Word :=
  T (msByte D r ^^^ o) ^^^ lsBytes D r

/-- The eight-octet loop of R163 and R192 over an octet step. -/
def octetLoop (stepOctet : Word → Octet → Word) (data : Word) (n : Nat) (r : Word) : Word :=
  (List.range n).foldl (fun r i => stepOctet r (lane data i)) r

/-- R180's loop: one cycle per bit of the group `DATA[n-1:0]`, in stream order. -/
def bitLoop (D : Divisor) (data : Word) (n : Nat) (r : Word) : Word :=
  (List.range n).foldl (fun r k => cycle D r (groupBit D.reflected data n k)) r

/-- R182's form of the same: `n div 8` octet steps, then `n mod 8` cycles. -/
def groupLoop (stepOctet : Word → Octet → Word) (D : Divisor) (data : Word) (n : Nat) (r : Word) : Word :=
  let whole := (List.range (n / 8)).foldl (fun r j => stepOctet r (groupOctet D.reflected data n j)) r
  (List.range (n % 8)).foldl (fun r k => cycle D r (groupBit D.reflected data n (8 * (n / 8) + k))) whole

/-! ### The parameter set (41_params_init.md) -/

/-- CFG.WIDTH as a number. -/
def State.width (s : State) : Nat := s.cfgWidth.toNat

/-- W, RF and P of the state. -/
def State.divisor (s : State) : Divisor := { width := s.width, reflected := s.cfgReflect, poly := s.poly }

/-- `ConfigValid` (R140). -/
def State.configValid (s : State) : Bool :=
  decide (1 ≤ s.width ∧ s.width ≤ Config.maxWidth) &&
    fits s.poly s.width && fits s.init s.width && fits s.xorout s.width

/-- `seed(v)` (R144). -/
def State.seed (s : State) (v : Word) : Word := if s.cfgReflect then reflect v s.width else v

/-- A write to a parameter register clears BOUND (10_state.md R28). -/
def State.unbind (s : State) : State := { s with bound := false }

/-- A write to CFG or POLY clears TABLE_VALID too (45_table.md R201). What TABLE then holds is unspecified and
unobservable; here it keeps its content (log 6). -/
def State.invalidateTable (s : State) : State := { s with tableValid := false }

/-- A constructing command's effect: REMAINDER <- r, BOUND <- 1 (R142, R143, R192). -/
def State.bind (s : State) (r : Word) : State := { s with remainder := r, bound := true }

/-! ### The octet remainder table (45_table.md) -/

/-- The table path is taken "when HAS_TABLE = true and STATUS.TABLE_VALID = 1" (R204). -/
def State.tablePath (s : State) : Bool := s.params.hasTable && s.tableValid

/-- The octet step by the path R204 selects. -/
def State.stepOctet (s : State) (r : Word) (o : Octet) : Word :=
  if s.tablePath then octetStepBytewise s.divisor (fun d => s.table[d.toNat]'d.isLt) r o
  else octetStep s.divisor r o

/-- What a read of the window gives for entry d (R206). -/
def State.tableWindow (s : State) (d : BitVec 8) : Word := if s.tablePath then s.table[d.toNat]'d.isLt else 0#64

/-- TABLE filled with T for every d (R200). -/
def filledTable (D : Divisor) : Vector Word 256 :=
  ⟨((List.range 256).map fun d => tableRemainder D (BitVec.ofNat 8 d)).toArray, by simp⟩

/-! ### Answers (20_memory.md R60) -/

/-- OKAY to a write. -/
def answerWrite (s : State) : Host.Outcome State Fault Refusal := .next { s with response := some .okayWrite }

/-- OKAY(rdata) to a read; nothing else changes (R67). -/
def answerRead (rdata : Word) (s : State) : Host.Outcome State Fault Refusal :=
  .next { s with response := some (.okayRead rdata) }

/-- `raise BusError(offset)` (R63, 60_exceptions.md R250). -/
def raiseBusError (t : Transaction) : Host.Outcome State Fault Refusal :=
  match t with
  | .read o _ => .fault (.busError o)
  | .write o _ _ => .fault (.busError o)

/-! ### Commands: checks, rejection, return (60_exceptions.md) -/

/-- `raise CmdError(code, word)`: the trap entry (R245). -/
def raiseCmdError (e : CmdError) (word : Word) (s : State) : State :=
  { s with err := true, errCode := e.code, errInfo := word }

/-- The trap return: the latch is cleared and nothing else changes (R249, 46_access_control.md R222). -/
def clearLatch (s : State) : State := { s with err := false, errCode := 0#4, errInfo := 0#64 }

/-- "The first condition that holds decides the outcome" (R247). -/
def firstError (checks : List (Bool × CmdError)) : Option CmdError :=
  match checks with
  | [] => none
  | (holds, e) :: rest => if holds then some e else firstError rest

/-- A command other than CLEAR_ERROR: dropped while the latch is set (R246), rejected by the first check that
holds (R247), else performed. The CMD write itself is answered OKAY (46_access_control.md R216). -/
def issue (word : Word) (checks : List (Bool × CmdError)) (effect : State → State) (s : State) :
    Host.Outcome State Fault Refusal :=
  if s.err then answerWrite s
  else
    match firstError checks with
    | some e => answerWrite (raiseCmdError e word s)
    | none => answerWrite (effect s)

/-! ### Reset and routing -/

/-- The platform's reset pulse: every field of R38 takes its reset value (70_reset_and_hazards.md R270); CAP's
parameters and the inputs still to come are not the block's to reset. -/
def State.applyReset (s : State) : State := { State.reset with params := s.params, pending := s.pending }

/-- Where a platform bus address reaches the block: `BASE ≤ A ≤ BASE + 0xFFF`, `offset = A − BASE` (20_memory.md R60). -/
def routeAddress (addr : Nat) : Option Offset :=
  if Config.base ≤ addr ∧ addr ≤ Config.base + 0xFFF then some (BitVec.ofNat 12 (addr - Config.base)) else none

end Sys2Proof.Machine
end

