-- ==== Sys2Proof/Machine/Append.lean ====
section
/-! DEFINITION. The appends: APPEND_OCTETS (spec/42_append_octets.md R163) and APPEND_BITS (43_append_bits.md R180),
their octet steps by the path of 45_table.md R204. -/

namespace Sys2Proof.Machine

/-- APPEND_OCTETS (R163): lanes 0..n-1 of DATA, n up to 8. -/
def execAppendOctets (n : BitVec 7) (s : State) : Host.Outcome State Fault Refusal :=
  issue (cmdWord 0x03#8 n) [(decide (8 < n.toNat), .countRange), (!s.bound, .notBound)]
    (fun s => { s with remainder := octetLoop s.stepOctet s.data n.toNat s.remainder }) s

/-- APPEND_BITS (R180): the group `DATA[n-1:0]`, n up to 64, computed as whole octets and a partial one (R182);
with `WIDE_APPEND_POLICY = refuse` a group wider than the register is rejected (60_exceptions.md R243). -/
def execAppendBits (n : BitVec 7) (s : State) : Host.Outcome State Fault Refusal :=
  issue (cmdWord 0x04#8 n)
    [(decide (64 < n.toNat), .countRange), (!s.bound, .notBound),
      (decide (s.params.wideAppend = .refuse) && decide (s.width < n.toNat), .wideAppendRefused)]
    (fun s => { s with remainder := groupLoop s.stepOctet s.divisor s.data n.toNat s.remainder }) s

end Sys2Proof.Machine
end

