-- ==== Sys2Proof/Machine/Check.lean ====
section
/-! DEFINITION. The check value: RD_CHECK, RD_REMAINDER, COMPUTE (spec/44_check_compute.md R190 to R192). -/

namespace Sys2Proof.Machine

/-- RD_CHECK (R190): REMAINDER ^ XOROUT as they stand, bound or not. -/
def execRdCheck (s : State) : Host.Outcome State Fault Refusal := answerRead (s.remainder ^^^ s.xorout) s

/-- RD_REMAINDER (R191). -/
def execRdRemainder (s : State) : Host.Outcome State Fault Refusal := answerRead s.remainder s

/-- COMPUTE (R192): construct with INIT, then append lanes 0..n-1 of DATA, n up to 8. -/
def execCompute (n : BitVec 7) (s : State) : Host.Outcome State Fault Refusal :=
  issue (cmdWord 0x05#8 n) [(decide (8 < n.toNat), .countRange), (!s.configValid, .configInvalid)]
    (fun s => s.bind (octetLoop s.stepOctet s.data n.toNat (s.seed s.init))) s

end Sys2Proof.Machine
end

