-- ==== Sys2Proof/Machine/Construct.lean ====
section
/-! DEFINITION. The parameter registers and construction: WR_CFG, WR_POLY, WR_INIT, WR_XOROUT, INIT, INIT_CUSTOM
(spec/41_params_init.md R141 to R143). -/

namespace Sys2Proof.Machine

/-- WR_CFG (R141): stores `v & 0x17F`, that is WIDTH and REFLECT_IO; clears BOUND and TABLE_VALID. -/
def execWrCfg (v : Word) (s : State) : Host.Outcome State Fault Refusal :=
  answerWrite { s.unbind.invalidateTable with cfgWidth := v.extractLsb' 0 7, cfgReflect := v.getLsbD 8 }

/-- WR_POLY (R141): clears BOUND and TABLE_VALID. -/
def execWrPoly (v : Word) (s : State) : Host.Outcome State Fault Refusal :=
  answerWrite { s.unbind.invalidateTable with poly := v }

/-- WR_INIT (R141): clears BOUND. -/
def execWrInit (v : Word) (s : State) : Host.Outcome State Fault Refusal :=
  answerWrite { s.unbind with init := v }

/-- WR_XOROUT (R141): clears BOUND. -/
def execWrXorout (v : Word) (s : State) : Host.Outcome State Fault Refusal :=
  answerWrite { s.unbind with xorout := v }

/-- INIT (R142): REMAINDER <- seed(INIT), BOUND <- 1. -/
def execInit (s : State) : Host.Outcome State Fault Refusal :=
  issue (cmdWord 0x01#8 0#7) [(!s.configValid, .configInvalid)] (fun s => s.bind (s.seed s.init)) s

/-- INIT_CUSTOM (R143): REMAINDER <- seed(DATA), BOUND <- 1; DATA must fit the width. -/
def execInitCustom (s : State) : Host.Outcome State Fault Refusal :=
  issue (cmdWord 0x02#8 0#7)
    [(!s.configValid, .configInvalid), (!fits s.data s.width, .initValueTooWide)]
    (fun s => s.bind (s.seed s.data)) s

end Sys2Proof.Machine
end

