-- ==== Sys2Proof/Machine/Reflection.lean ====
section
/-! DEFINITION. The bit reflection utility: REFLECT (spec/40_reflect.md R131). -/

namespace Sys2Proof.Machine

/-- REFLECT (R131): RESULT <- reflect(DATA, n), n up to 64; it needs no configuration and no bound engine. -/
def execReflect (n : BitVec 7) (s : State) : Host.Outcome State Fault Refusal :=
  issue (cmdWord 0x06#8 n) [(decide (64 < n.toNat), .countRange)]
    (fun s => { s with result := reflect s.data n.toNat }) s

end Sys2Proof.Machine
end

