-- ==== Sys2Proof/Machine/Table.lean ====
section
/-! DEFINITION. The octet remainder table: BUILD_TABLE, RD_TABLE (spec/45_table.md R200, R206). -/

namespace Sys2Proof.Machine

/-- BUILD_TABLE (R200): TABLE[d] <- T(d) for every d and TABLE_VALID <- 1; without HAS_TABLE it is accepted and
does nothing. -/
def execBuildTable (s : State) : Host.Outcome State Fault Refusal :=
  issue (cmdWord 0x07#8 0#7) [(!s.configValid, .configInvalid)]
    (fun s =>
      if s.params.hasTable then { s with table := filledTable s.divisor, tableValid := true } else s) s

/-- RD_TABLE (R206): TABLE[d], or 0 while the table is absent or not valid. -/
def execRdTable (d : BitVec 8) (s : State) : Host.Outcome State Fault Refusal := answerRead (s.tableWindow d) s

end Sys2Proof.Machine
end

