-- ==== Sys2Proof/Machine/Access.lean ====
section
/-! DEFINITION. Register accesses, the dispatch of a CMD write, error clearing and the refused accesses
(spec/46_access_control.md R215 to R223). -/

namespace Sys2Proof.Machine

/-- CLEAR_ERROR (R222): accepted in every state; clears the latch and nothing else. -/
def execClearError (s : State) : Host.Outcome State Fault Refusal := answerWrite (clearLatch s)

/-- ILLEGAL (R223): dropped while latched, else rejected with ILLEGAL_COMMAND. -/
def execIllegal (word : Word) (s : State) : Host.Outcome State Fault Refusal :=
  issue word [(true, .illegalCommand)] (fun s => s) s

/-- WR_DATA (R215): stores, and nothing else. -/
def execWrData (v : Word) (s : State) : Host.Outcome State Fault Refusal := answerWrite { s with data := v }

/-- WR_CMD (R216): issues the command the word decodes to (30_encoding.md R106). -/
def execWrCmd (word : Word) (s : State) : Host.Outcome State Fault Refusal :=
  match decodeCommand word with
  | .init => execInit s
  | .initCustom => execInitCustom s
  | .appendOctets n => execAppendOctets n s
  | .appendBits n => execAppendBits n s
  | .compute n => execCompute n s
  | .reflect n => execReflect n s
  | .buildTable => execBuildTable s
  | .clearError => execClearError s
  | .illegal w => execIllegal w s

/-- RD_CFG (R217). -/
def execRdCfg (s : State) : Host.Outcome State Fault Refusal := answerRead s.cfgWord s

/-- RD_POLY (R217). -/
def execRdPoly (s : State) : Host.Outcome State Fault Refusal := answerRead s.poly s

/-- RD_INIT (R217). -/
def execRdInit (s : State) : Host.Outcome State Fault Refusal := answerRead s.init s

/-- RD_XOROUT (R217). -/
def execRdXorout (s : State) : Host.Outcome State Fault Refusal := answerRead s.xorout s

/-- RD_DATA (R217). -/
def execRdData (s : State) : Host.Outcome State Fault Refusal := answerRead s.data s

/-- RD_CMD (R218): reads 0 and issues no command. -/
def execRdCmd (s : State) : Host.Outcome State Fault Refusal := answerRead 0#64 s

/-- RD_RESULT (R219). -/
def execRdResult (s : State) : Host.Outcome State Fault Refusal := answerRead s.result s

/-- RD_STATUS (R219). -/
def execRdStatus (s : State) : Host.Outcome State Fault Refusal := answerRead s.statusWord s

/-- RD_ERR_INFO (R219). -/
def execRdErrInfo (s : State) : Host.Outcome State Fault Refusal := answerRead s.errInfo s

/-- RD_CAP (R219). -/
def execRdCap (s : State) : Host.Outcome State Fault Refusal := answerRead (capWord s.params) s

/-- BUS_ERROR (R220): answered with ERROR, which is a fault of the step (60_exceptions.md R250). -/
def execBusError (t : Transaction) (_s : State) : Host.Outcome State Fault Refusal := raiseBusError t

end Sys2Proof.Machine
end

