-- ==== Sys2Proof/Machine/Dispatch.lean ====
section
/-! DEFINITION. The meaning of every instruction, one arm per row of spec/opcode_table.json. -/

namespace Sys2Proof.Machine

def exec (i : Instr) (s : State) : Host.Outcome State Fault Refusal :=
  match i with
  | .init => Sys2Proof.Machine.execInit s
  | .initCustom => Sys2Proof.Machine.execInitCustom s
  | .appendOctets n => Sys2Proof.Machine.execAppendOctets n s
  | .appendBits n => Sys2Proof.Machine.execAppendBits n s
  | .compute n => Sys2Proof.Machine.execCompute n s
  | .reflect n => Sys2Proof.Machine.execReflect n s
  | .buildTable => Sys2Proof.Machine.execBuildTable s
  | .clearError => Sys2Proof.Machine.execClearError s
  | .illegal word => Sys2Proof.Machine.execIllegal word s
  | .wrCfg v => Sys2Proof.Machine.execWrCfg v s
  | .wrPoly v => Sys2Proof.Machine.execWrPoly v s
  | .wrInit v => Sys2Proof.Machine.execWrInit v s
  | .wrXorout v => Sys2Proof.Machine.execWrXorout v s
  | .wrData v => Sys2Proof.Machine.execWrData v s
  | .wrCmd word => Sys2Proof.Machine.execWrCmd word s
  | .rdCfg => Sys2Proof.Machine.execRdCfg s
  | .rdPoly => Sys2Proof.Machine.execRdPoly s
  | .rdInit => Sys2Proof.Machine.execRdInit s
  | .rdXorout => Sys2Proof.Machine.execRdXorout s
  | .rdData => Sys2Proof.Machine.execRdData s
  | .rdCmd => Sys2Proof.Machine.execRdCmd s
  | .rdCheck => Sys2Proof.Machine.execRdCheck s
  | .rdRemainder => Sys2Proof.Machine.execRdRemainder s
  | .rdResult => Sys2Proof.Machine.execRdResult s
  | .rdStatus => Sys2Proof.Machine.execRdStatus s
  | .rdErrInfo => Sys2Proof.Machine.execRdErrInfo s
  | .rdCap => Sys2Proof.Machine.execRdCap s
  | .rdTable d => Sys2Proof.Machine.execRdTable d s
  | .busError t => Sys2Proof.Machine.execBusError t s

end Sys2Proof.Machine
end

