-- ==== Sys2Proof/Machine/Step.lean ====
section
/-! DEFINITION. One step of the block: the next input is performed whole (spec/20_memory.md R66, R71). -/

namespace Sys2Proof.Machine

/-- One step. With no input pending the block waits, every register keeping its value (60_exceptions.md R257,
log 3). A reset pulse resets (70_reset_and_hazards.md R270). A transaction is decoded and performed (20_memory.md R66). -/
def step (s : State) : Host.Outcome State Fault Refusal :=
  match s.pending with
  | [] => .next s
  | .reset :: rest => .next ({ s with pending := rest } : State).applyReset
  | .access t :: rest => exec (decode (.bus t)) { s with pending := rest }

/-- The state with the transaction `t` the next the host issues. -/
def State.withNext (s : State) (t : Transaction) : State := { s with pending := .access t :: s.pending }

/-- The state whose next step performs the instruction the table numbers `w`: the host issues its transaction, for a
command word the write of it to CMD (logs 3 and 8). -/
def State.withFetchWord (s : State) (nbits w : Nat) : State :=
  match tableEncoding nbits w with
  | some e => s.withNext e.transaction
  | none => s

end Sys2Proof.Machine
end

