-- ==== Sys2Proof/Machine/Assembler.lean ====
section
/-! DEFINITION. The host's side: the statements of spec/30_encoding.md R107, the pseudo-instructions of R108, and a
host that performs transactions one after another (spec/20_memory.md R71). -/

namespace Sys2Proof.Machine

/-- The registers `wr REG, v` names (R107). -/
inductive WriteReg where
  | cfg
  | poly
  | init
  | xorout
  | data
  | cmd
deriving DecidableEq, Repr

/-- The registers `rd REG` names: every readable one (R107, 10_state.md section 2). -/
inductive ReadReg where
  | cfg
  | poly
  | init
  | xorout
  | data
  | cmd
  | check
  | remainder
  | result
  | status
  | errInfo
  | cap
deriving DecidableEq, Repr

/-- The statements of R107. -/
inductive Stmt where
  | init
  | initCustom
  | appendOctets (n : Nat)
  | appendBits (n : Nat)
  | compute (n : Nat)
  | reflect (n : Nat)
  | tableBuild
  | errClear
  | wr (reg : WriteReg) (v : Word)
  | rd (reg : ReadReg)
  | rdTable (d : BitVec 8)
  | cmd (v : Word)
deriving DecidableEq, Repr

/-- The offset of a writable register (10_state.md section 2). -/
def WriteReg.offset (reg : WriteReg) : Offset :=
  match reg with
  | .cfg => 0x000#12
  | .poly => 0x008#12
  | .init => 0x010#12
  | .xorout => 0x018#12
  | .data => 0x020#12
  | .cmd => 0x028#12

/-- The offset of a readable register (10_state.md section 2). -/
def ReadReg.offset (reg : ReadReg) : Offset :=
  match reg with
  | .cfg => 0x000#12
  | .poly => 0x008#12
  | .init => 0x010#12
  | .xorout => 0x018#12
  | .data => 0x020#12
  | .cmd => 0x028#12
  | .check => 0x030#12
  | .remainder => 0x038#12
  | .result => 0x040#12
  | .status => 0x048#12
  | .errInfo => 0x050#12
  | .cap => 0x058#12

/-- `CMD ← v` (R107). -/
def writeCmd (v : Word) : Transaction := .write 0x028#12 .b8 v

/-- A counted command: "The assembler refuses a statement whose `n` is larger than 127" (R107). -/
def countedCmd (op : BitVec 8) (n : Nat) : Option Transaction :=
  if n ≤ 127 then some (writeCmd (cmdWord op (BitVec.ofNat 7 n))) else none

/-- The encoding of a statement (R107). -/
def assemble (st : Stmt) : Option Transaction :=
  match st with
  | .init => some (writeCmd 0x1#64)
  | .initCustom => some (writeCmd 0x2#64)
  | .appendOctets n => countedCmd 0x03#8 n
  | .appendBits n => countedCmd 0x04#8 n
  | .compute n => countedCmd 0x05#8 n
  | .reflect n => countedCmd 0x06#8 n
  | .tableBuild => some (writeCmd 0x7#64)
  | .errClear => some (writeCmd 0x8#64)
  | .wr reg v => some (.write reg.offset .b8 v)
  | .rd reg => some (.read reg.offset .b8)
  | .rdTable d => some (.read (0x800#12 + (d.setWidth 12 <<< 3)) .b8)
  | .cmd v => some (writeCmd v)

/-- The transactions of a statement list, none if the assembler refuses one of them. -/
def assembleAll (sts : List Stmt) : Option (List Transaction) :=
  match sts with
  | [] => some []
  | st :: rest =>
    match assemble st, assembleAll rest with
    | some t, some ts => some (t :: ts)
    | _, _ => none

/-- Octets packed into DATA, lane 0 first (R108, 20_memory.md R61). -/
def packOctets (octets : List Octet) : Word :=
  match octets with
  | [] => 0#64
  | o :: rest => o.setWidth 64 ||| (packOctets rest <<< 8)

/-- `crc.config w, p, i, r, x` (R108). -/
def pseudoConfig (w p i r x : Word) : List Stmt :=
  [.wr .cfg ((r <<< 8) ||| w), .wr .poly p, .wr .init i, .wr .xorout x]

/-- `crc.construct` (R108). -/
def pseudoConstruct : List Stmt := [.init]

/-- `crc.construct v` (R108). -/
def pseudoConstructWith (v : Word) : List Stmt := [.wr .data v, .initCustom]

/-- One chunk of `crc.octets`: at most eight octets (R108). -/
def appendChunk (octets : List Octet) : List Stmt :=
  [.wr .data (packOctets octets), .appendOctets octets.length]

/-- `crc.octets b0, …` (R108): chunks of eight from the front, the last one shorter. -/
def pseudoOctets (octets : List Octet) : List Stmt :=
  (List.range ((octets.length + 7) / 8)).flatMap fun k => appendChunk ((octets.drop (8 * k)).take 8)

/-- `crc.bits v, n`: R108 gives the expansion "for 0 ≤ n ≤ 64". For a larger n the rule says nothing, and the same
expansion is taken here (log 16, DESIGN CHOICE). -/
def pseudoBits (v : Word) (n : Nat) : List Stmt := [.wr .data v, .appendBits n]

/-- `crc.check` (R108). -/
def pseudoCheck : List Stmt := [.rd .check]

/-- `crc.compute.msg b0, …` (R108). -/
def pseudoComputeMsg (octets : List Octet) : List Stmt :=
  if octets.length ≤ 8 then [.wr .data (packOctets octets), .compute octets.length, .rd .check]
  else [.init] ++ pseudoOctets octets ++ [.rd .check]

/-- `crc.reflectv v, n` (R108). -/
def pseudoReflectv (v : Word) (n : Nat) : List Stmt := [.wr .data v, .reflect n, .rd .result]

/-- `crc.save` (R108). -/
def pseudoSave : List Stmt := [.rd .remainder]

/-- `crc.restore s` up to the value written to DATA (R108): for REFLECT_IO = 1 the host first has the block
reflect `s` and reads RESULT; for REFLECT_IO = 0 nothing comes first. -/
def pseudoRestoreFirst (reflected : Bool) (width : Nat) (s : Word) : List Stmt :=
  if reflected then pseudoReflectv s width else []

/-- `crc.restore s` from the write of DATA on (R108): `v` is `s`, or the RESULT the host read (log 14). -/
def pseudoRestoreLast (v : Word) : List Stmt := [.wr .data v, .initCustom]

/-- The host performs transactions in order, each decoded and executed whole; the first ERROR stops it
(60_exceptions.md R250). -/
def performAll (ts : List Transaction) (s : State) : Host.Outcome State Fault Refusal :=
  match ts with
  | [] => .next s
  | t :: rest =>
    match exec (decode (.bus t)) s with
    | .next s' => performAll rest s'
    | .fault f => .fault f
    | .refused r => .refused r

/-- The host performs statements: none if the assembler refuses one. -/
def performStmts (sts : List Stmt) (s : State) : Option (Host.Outcome State Fault Refusal) :=
  (assembleAll sts).map fun ts => performAll ts s

end Sys2Proof.Machine
end

