-- ==== Sys2Proof/Safety.lean ====
section
/-! DEFINITION. The terms claims are stated in: the invariant of the block (spec/10_state.md R28, R31;
spec/45_table.md R201), what a CMD write performs, and which inputs a safe run has. -/

namespace Sys2Proof.Machine

/-- The invariant every step keeps: what ties the status bits to the registers. -/
structure Inv (s : State) : Prop where
  /-- "while BOUND = 1, the configuration is valid" (10_state.md R28). -/
  bound_valid : s.bound = true → s.configValid = true
  /-- "and `REMAINDER < 2^W`" (10_state.md R28). -/
  bound_fits : s.bound = true → fits s.remainder s.width = true
  /-- "`ERR = 0` if and only if `ERR_CODE = 0`" (10_state.md R31). -/
  latch_code : s.err = false ↔ s.errCode = 0#4
  /-- Codes 7 to 15 are "never raised" (60_exceptions.md R240). -/
  code_known : s.errCode.toNat ≤ 6
  /-- Code 6 is raised only under `refuse` (60_exceptions.md R243). -/
  code_refused : s.errCode = 6#4 → s.params.wideAppend = .refuse
  /-- ERR_INFO holds a word only while an error is latched (10_state.md R32, 46_access_control.md R222). -/
  latch_info : s.err = false → s.errInfo = 0#64
  /-- TABLE_VALID is set only when HAS_TABLE (10_state.md R31). -/
  table_present : s.tableValid = true → s.params.hasTable = true
  /-- "1 ≤ W ≤ 64" while TABLE_VALID = 1 (45_table.md R201). -/
  table_width : s.tableValid = true → 1 ≤ s.width ∧ s.width ≤ 64
  /-- "`fits(POLY, W)`" while TABLE_VALID = 1 (45_table.md R201). -/
  table_poly : s.tableValid = true → fits s.poly s.width = true
  /-- "while TABLE_VALID = 1, TABLE[d] = T(d) for the current W, RF and P" (45_table.md R201). -/
  table_content : s.tableValid = true →
    ∀ d : Octet, s.table[d.toNat]'d.isLt = tableRemainder s.divisor d

/-- The instruction an instruction performs: a CMD write performs its command (46_access_control.md R216). -/
def performed (i : Instr) : Instr :=
  match i with
  | .wrCmd word => decode (.cmd word)
  | .init | .initCustom | .appendOctets _ | .appendBits _ | .compute _ | .reflect _ | .buildTable
  | .clearError | .illegal _ | .wrCfg _ | .wrPoly _ | .wrInit _ | .wrXorout _ | .wrData _ | .rdCfg
  | .rdPoly | .rdInit | .rdXorout | .rdData | .rdCmd | .rdCheck | .rdRemainder | .rdResult
  | .rdStatus | .rdErrInfo | .rdCap | .rdTable _ | .busError _ => i

/-- An input the block never answers with ERROR (20_memory.md R62). -/
def acceptedInput (x : Input) : Bool :=
  match x with
  | .access t => acceptedAccess t
  | .reset => true

/-- A run is safe when every pending input is accepted. -/
def safeInputs (s : State) : Bool := s.pending.all acceptedInput

/-- The offset a transaction addresses (20_memory.md R60). -/
def accessOffset (t : Transaction) : Offset :=
  match t with
  | .read o _ => o
  | .write o _ _ => o

end Sys2Proof.Machine
end

