-- ==== Sys2Proof/Certificates/Slice0/Obligations.lean ====
section
/-! DEFINITION. The statements for the provers, file by file of spec/. Each docstring names the rule it formalises, or
the model's own choice (a log entry) it rests on. -/

open Sys2Proof Sys2Proof.Machine

/-! ### Encoding (30_encoding.md) -/

/-- Every well-formed instruction of the table, at every operand value, is what its encoding decodes to
(30_encoding.md sections 1, 2 and 4). -/
def Obligations.DecodeOfEncodeIsTheInstruction : Prop :=
  ∀ i : Instr, wellFormed i = true → decode (encode i) = i

/-- No bit is dropped: encoding what a command word or transaction decodes to gives it back, so each has one meaning
(R106, "every transaction and every 64-bit word has exactly one outcome"). -/
def Obligations.EncodeOfDecodeIsTheEncoding : Prop :=
  ∀ e : Encoding, encode (decode e) = e

/-- The decoder gives well-formed instructions only; ILLEGAL exactly on the words of R104, BUS_ERROR exactly on the
accesses R62 refuses. -/
def Obligations.DecoderSeparatesIllegalAndRefused : Prop :=
  (∀ e : Encoding, wellFormed (decode e) = true) ∧
  (∀ w : Word, decode (.cmd w) = .illegal w ↔ legalCommandWord w = false) ∧
  (∀ t : Transaction, decode (.bus t) = .busError t ↔ acceptedAccess t = false)

/-- Words written out from the opcode map (R102) and the register map (10_state.md section 2). The two clauses on
`decodeTableWord` are the model's, no rule of the spec: that 16 bits are a descriptor and 64 a command word, and that
the write then carries wdata 0, is log 8 (DESIGN CHOICE). -/
def Obligations.WrittenOutWordsDecode : Prop :=
  decode (.cmd 0x0000000000000001#64) = .init ∧
  decode (.cmd 0x0000000000000803#64) = .appendOctets 8#7 ∧
  decode (.cmd 0x0000000000004004#64) = .appendBits 64#7 ∧
  decode (.cmd 0x0000000000007F06#64) = .reflect 127#7 ∧
  decode (.cmd 0x0000000000008001#64) = .illegal 0x8001#64 ∧
  decode (.bus (.write 0x028#12 .b8 0x8#64)) = .wrCmd 0x8#64 ∧
  decode (.bus (.read 0x048#12 .b8)) = .rdStatus ∧
  decode (.bus (.read 0xFF8#12 .b8)) = .rdTable 255#8 ∧
  decode (.bus (.read 0x7F8#12 .b8)) = .busError (.read 0x7F8#12 .b8) ∧
  decodeTableWord 16 0x1010 = some (.wrInit 0#64) ∧
  decodeTableWord 64 0x7 = some .buildTable

/-- R104: OP 0x00 or 0x09..0xFF, RSVD ≠ 0, or N ≠ 0 with INIT, INIT_CUSTOM, BUILD_TABLE or CLEAR_ERROR: rejected
with ILLEGAL_COMMAND and no other effect; dropped while an error is latched. -/
def Obligations.IllegalWordsAreRejected : Prop :=
  ∀ (w : Word) (s : State),
    (w.toNat % 256 = 0 ∨ 9 ≤ w.toNat % 256 ∨ 2 ^ 15 ≤ w.toNat ∨
      (w.toNat / 256 % 128 ≠ 0 ∧
        (w.toNat % 256 = 1 ∨ w.toNat % 256 = 2 ∨ w.toNat % 256 = 7 ∨ w.toNat % 256 = 8))) →
    (s.err = false →
      exec (.wrCmd w) s =
        .next { s with err := true, errCode := 1#4, errInfo := w, response := some .okayWrite }) ∧
    (s.err = true → exec (.wrCmd w) s = .next { s with response := some .okayWrite })

/-- R223: the arm ILLEGAL latches ILLEGAL_COMMAND with its word; it is dropped while an error is latched; the word 0
is illegal. -/
def Obligations.IllegalLatchesTheWord : Prop :=
  ∀ (w : Word) (s : State),
    (s.err = false → exec (.illegal w) s =
      .next { s with err := true, errCode := 1#4, errInfo := w, response := some .okayWrite }) ∧
    (s.err = true → exec (.illegal w) s = .next { s with response := some .okayWrite }) ∧
    decode (.cmd 0#64) = .illegal 0#64

/-- R105 and R220: a narrow, misaligned or reserved access, and a write at or above 0x030, is answered with ERROR;
a read of CMD is legal and returns 0. -/
def Obligations.RefusedAccessesFault : Prop :=
  ∀ (o : Offset) (size : AccessSize) (v : Word) (s : State),
    ((size ≠ .b8 ∨ o.toNat % 8 ≠ 0 ∨ (0x060 ≤ o.toNat ∧ o.toNat ≤ 0x7F8)) →
      exec (decode (.bus (.read o size))) s = .fault (.busError o) ∧
      exec (decode (.bus (.write o size v))) s = .fault (.busError o)) ∧
    (0x030 ≤ o.toNat → exec (decode (.bus (.write o size v))) s = .fault (.busError o)) ∧
    exec (decode (.bus (.read 0x028#12 .b8))) s = .next { s with response := some (.okayRead 0#64) }

/-- BUS_ERROR stops with the bus error of its own access, in every state (R250, R63). -/
def Obligations.BusErrorStopsTheStep : Prop :=
  ∀ (t : Transaction) (s : State),
    exec (.busError t) s = .fault (.busError (accessOffset t)) ∧
    (∀ rest, s.pending = .access t :: rest → acceptedAccess t = false →
      step s = .fault (.busError (accessOffset t)))

/-- R107: what the assembler makes of each statement; it refuses a count above 127. -/
def Obligations.StatementsAssemble : Prop :=
  assemble .init = some (.write 0x028#12 .b8 0x0000000000000001#64) ∧
  assemble .initCustom = some (.write 0x028#12 .b8 0x0000000000000002#64) ∧
  assemble .tableBuild = some (.write 0x028#12 .b8 0x0000000000000007#64) ∧
  assemble .errClear = some (.write 0x028#12 .b8 0x0000000000000008#64) ∧
  (∀ n : Nat, n ≤ 127 →
    assemble (.appendOctets n) = some (.write 0x028#12 .b8 (BitVec.ofNat 64 (0x03 + 256 * n))) ∧
    assemble (.appendBits n) = some (.write 0x028#12 .b8 (BitVec.ofNat 64 (0x04 + 256 * n))) ∧
    assemble (.compute n) = some (.write 0x028#12 .b8 (BitVec.ofNat 64 (0x05 + 256 * n))) ∧
    assemble (.reflect n) = some (.write 0x028#12 .b8 (BitVec.ofNat 64 (0x06 + 256 * n)))) ∧
  (∀ n : Nat, 127 < n →
    assemble (.appendOctets n) = none ∧ assemble (.appendBits n) = none ∧
    assemble (.compute n) = none ∧ assemble (.reflect n) = none) ∧
  (∀ v : Word,
    assemble (.wr .cfg v) = some (.write 0x000#12 .b8 v) ∧
    assemble (.wr .poly v) = some (.write 0x008#12 .b8 v) ∧
    assemble (.wr .init v) = some (.write 0x010#12 .b8 v) ∧
    assemble (.wr .xorout v) = some (.write 0x018#12 .b8 v) ∧
    assemble (.wr .data v) = some (.write 0x020#12 .b8 v) ∧
    assemble (.wr .cmd v) = some (.write 0x028#12 .b8 v) ∧
    assemble (.cmd v) = some (.write 0x028#12 .b8 v)) ∧
  (assemble (.rd .cfg) = some (.read 0x000#12 .b8) ∧ assemble (.rd .poly) = some (.read 0x008#12 .b8) ∧
    assemble (.rd .init) = some (.read 0x010#12 .b8) ∧ assemble (.rd .xorout) = some (.read 0x018#12 .b8) ∧
    assemble (.rd .data) = some (.read 0x020#12 .b8) ∧ assemble (.rd .cmd) = some (.read 0x028#12 .b8) ∧
    assemble (.rd .check) = some (.read 0x030#12 .b8) ∧ assemble (.rd .remainder) = some (.read 0x038#12 .b8) ∧
    assemble (.rd .result) = some (.read 0x040#12 .b8) ∧ assemble (.rd .status) = some (.read 0x048#12 .b8) ∧
    assemble (.rd .errInfo) = some (.read 0x050#12 .b8) ∧ assemble (.rd .cap) = some (.read 0x058#12 .b8)) ∧
  (∀ d : BitVec 8, assemble (.rdTable d) = some (.read (BitVec.ofNat 12 (0x800 + 8 * d.toNat)) .b8))

/-! ### The step (20_memory.md, 46_access_control.md, 70_reset_and_hazards.md) -/

/-- A step decodes the next transaction and executes it, with that transaction taken off the host's queue
(R66; the queue is the model's, log 3). -/
def Obligations.StepRunsDecodedTransaction : Prop :=
  ∀ (s : State) (t : Transaction) (rest : List Input), s.pending = .access t :: rest →
    step s = exec (decode (.bus t)) { s with pending := rest }

/-- R216: a write to CMD issues the command its word decodes to, and the bus answers OKAY. -/
def Obligations.CommandWriteIssuesItsCommand : Prop :=
  ∀ (w : Word) (s : State),
    exec (.wrCmd w) s = exec (decode (.cmd w)) s ∧
    ∃ t, exec (.wrCmd w) s = .next t ∧ t.response = some .okayWrite

/-- A word placed by `withFetchWord` is what the very next step runs, from every state (logs 3 and 8: the model's). -/
def Obligations.PlacedTableWordRunsNext : Prop :=
  ∀ (s : State) (nbits w : Nat) (i : Instr), decodeTableWord nbits w = some i →
    step (s.withFetchWord nbits w) = exec i s

/-- With no input pending nothing changes; a reset pulse sets every field of R38 to its reset value and leaves the
build parameters and the inputs still to come (R257, R270; the input queue is the model's, logs 3 and 10). -/
def Obligations.IdleStepAndResetPulse : Prop :=
  (∀ s : State, s.pending = [] → step s = .next s) ∧
  (∀ (s : State) (rest : List Input), s.pending = .reset :: rest →
    ∃ t, step s = .next t ∧ t.cfgWidth = 0#7 ∧ t.cfgReflect = false ∧ t.poly = 0#64 ∧ t.init = 0#64 ∧
      t.xorout = 0#64 ∧ t.data = 0#64 ∧ t.remainder = 0#64 ∧ t.result = 0#64 ∧ t.bound = false ∧
      t.tableValid = false ∧ t.err = false ∧ t.errCode = 0#4 ∧ t.errInfo = 0#64 ∧
      t.params = s.params ∧ t.pending = rest)

/-- The transactions pending are performed one at a time, in order, each on the state the earlier ones left (after
R71). The statement is about the model's own queue and the model's own host, no rule of the spec: that the block meets
the transactions in the order of `pending`, HOST_ORDERED_DEVICE_ACCESS assumed, is log 3 (DESIGN CHOICE), and that
`performAll` stops at the first ERROR is log 14 (DESIGN CHOICE). -/
def Obligations.RunPerformsPendingInOrder : Prop :=
  ∀ (ts : List Transaction) (rest : List Input) (s : State),
    Sys2Proof.core.run ts.length { s with pending := ts.map Input.access ++ rest } =
      performAll ts { s with pending := rest }

/-- The only stop is ERROR: a step faults exactly when its transaction is not accepted (R62, R63), and no step is
refused. -/
def Obligations.StepStopsOnlyOnRefusedAccess : Prop :=
  ∀ s : State,
    ((∃ f, step s = .fault f) ↔ ∃ t rest, s.pending = .access t :: rest ∧ acceptedAccess t = false) ∧
    (∀ r, step s ≠ .refused r)

/-- R60 and R8: the window is 4 KiB-aligned, every offset is reached at BASE + offset, and no other address reaches
the block. -/
def Obligations.WindowRouting : Prop :=
  Config.base % 4096 = 0 ∧
  (∀ o : Offset, routeAddress (Config.base + o.toNat) = some o) ∧
  (∀ a : Nat, a < Config.base ∨ Config.base + 0xFFF < a → routeAddress a = none)

/-! ### Reset and invariants (70_reset_and_hazards.md, 10_state.md) -/

/-- R270, for every setting of the build parameters: the reset values, the readings after reset, and what the
commands and a write to CFG do there. Every equality of states here says that TABLE keeps its content; for the write
to CFG, an invalidation, that is the model's: R203 leaves it unspecified (log 6, DESIGN CHOICE). The build parameters
beside the reset state are log 1, the OKAY answer in `response` is log 4. -/
def Obligations.ResetStateAndFirstCommands : Prop :=
  ∀ (p : Params) (s : State), s = { State.reset with params := p } →
    (s.cfgWidth = 0#7 ∧ s.cfgReflect = false ∧ s.poly = 0#64 ∧ s.init = 0#64 ∧ s.xorout = 0#64 ∧
      s.data = 0#64 ∧ s.remainder = 0#64 ∧ s.result = 0#64 ∧ s.bound = false ∧ s.tableValid = false ∧
      s.err = false ∧ s.errCode = 0#4 ∧ s.errInfo = 0#64) ∧
    exec .rdCheck s = .next { s with response := some (.okayRead 0#64) } ∧
    exec .rdStatus s = .next { s with response := some (.okayRead 0#64) } ∧
    (∀ d, exec (.rdTable d) s = .next { s with response := some (.okayRead 0#64) }) ∧
    s.configValid = false ∧
    (∀ w : Word, w = 0x1#64 ∨ w = 0x2#64 ∨ w = 0x7#64 ∨ (∃ n : Nat, n ≤ 8 ∧ w = BitVec.ofNat 64 (5 + 256 * n)) →
      exec (.wrCmd w) s =
        .next { s with err := true, errCode := 2#4, errInfo := w, response := some .okayWrite }) ∧
    (∀ w : Word, (∃ n : Nat, n ≤ 8 ∧ w = BitVec.ofNat 64 (3 + 256 * n)) ∨
        (∃ n : Nat, n ≤ 64 ∧ w = BitVec.ofNat 64 (4 + 256 * n)) →
      exec (.wrCmd w) s =
        .next { s with err := true, errCode := 4#4, errInfo := w, response := some .okayWrite }) ∧
    (∀ n : BitVec 7, n.toNat ≤ 64 → exec (.reflect n) s = .next { s with response := some .okayWrite }) ∧
    exec .clearError s = .next { s with response := some .okayWrite } ∧
    (∀ v, exec (.wrCfg v) s =
      .next { s with cfgWidth := v.extractLsb' 0 7, cfgReflect := v.getLsbD 8, response := some .okayWrite })

/-- The invariant holds after reset, whatever the build parameters (R28, R31, R201). -/
def Obligations.InvariantHoldsAtReset : Prop :=
  ∀ p : Params, Inv { State.reset with params := p }

/-- Every step keeps the invariant: BOUND implies a valid configuration and a REMAINDER that fits; ERR = 0 iff
ERR_CODE = 0; no reserved code; a valid table holds T (R28, R31, R201, R240). -/
def Obligations.EveryStepKeepsTheInvariant : Prop :=
  ∀ s t : State, Inv s → step s = .next t → Inv t

/-- R201: TABLE_VALID is cleared by a write to CFG, a write to POLY and reset, and by nothing else. The inputs are
named at the head of the model's queue (log 3). -/
def Obligations.TableInvalidationOnlyByCfgPolyReset : Prop :=
  (∀ (s t : State), step s = .next t → s.tableValid = true → t.tableValid = false →
    ∃ rest, s.pending = .reset :: rest ∨
      (∃ v, s.pending = .access (.write 0x000#12 .b8 v) :: rest) ∨
      (∃ v, s.pending = .access (.write 0x008#12 .b8 v) :: rest)) ∧
  (∀ (s t : State) (v : Word), exec (.wrCfg v) s = .next t ∨ exec (.wrPoly v) s = .next t →
    t.tableValid = false) ∧
  (∀ (s : State) (rest : List Input), s.pending = .reset :: rest →
    ∃ t, step s = .next t ∧ t.tableValid = false)

/-- Who writes REMAINDER, who sets BOUND and who clears it (R28); a parameter write clears BOUND and leaves
REMAINDER. -/
def Obligations.RemainderAndBoundWriters : Prop :=
  ∀ (i : Instr) (s t : State), exec i s = .next t →
    (t.remainder ≠ s.remainder →
      performed i = .init ∨ performed i = .initCustom ∨ (∃ n, performed i = .appendOctets n) ∨
        (∃ n, performed i = .appendBits n) ∨ ∃ n, performed i = .compute n) ∧
    (s.bound = false → t.bound = true →
      performed i = .init ∨ performed i = .initCustom ∨ ∃ n, performed i = .compute n) ∧
    (s.bound = true → t.bound = false →
      ∃ v, i = .wrCfg v ∨ i = .wrPoly v ∨ i = .wrInit v ∨ i = .wrXorout v) ∧
    (∀ v, i = .wrCfg v ∨ i = .wrPoly v ∨ i = .wrInit v ∨ i = .wrXorout v →
      t.bound = false ∧ t.remainder = s.remainder)

/-- Who writes the other registers: RESULT only REFLECT (R34), ERR_INFO only a rejection or CLEAR_ERROR (R32), DATA
only its own write (R27), the parameters only their own writes. Three clauses are the model's, no rule of the spec:
that TABLE changes by BUILD_TABLE only, so that a write to CFG or POLY keeps its content, which R203 leaves
unspecified (log 6, DESIGN CHOICE); that no instruction writes the build parameters State carries (log 1) or the
host's queue (log 3). -/
def Obligations.OneWriterPerRegister : Prop :=
  ∀ (i : Instr) (s t : State), exec i s = .next t →
    (t.result ≠ s.result → ∃ n, performed i = .reflect n) ∧
    (t.errInfo ≠ s.errInfo →
      (s.err = false ∧ t.err = true ∧ .cmd t.errInfo = encode (performed i)) ∨ performed i = .clearError) ∧
    (t.table ≠ s.table → performed i = .buildTable) ∧
    (t.data ≠ s.data → ∃ v, i = .wrData v) ∧
    (t.cfgWidth ≠ s.cfgWidth ∨ t.cfgReflect ≠ s.cfgReflect → ∃ v, i = .wrCfg v) ∧
    (t.poly ≠ s.poly → ∃ v, i = .wrPoly v) ∧
    (t.init ≠ s.init → ∃ v, i = .wrInit v) ∧
    (t.xorout ≠ s.xorout → ∃ v, i = .wrXorout v) ∧
    t.params = s.params ∧ t.pending = s.pending

/-! ### Register accesses (10_state.md, 41_params_init.md R141, 46_access_control.md) -/

/-- What each register write stores and clears (R141, R215), in every state, an error latched or not; CFG keeps
`v & 0x17F`; a write to DATA only stores. That TABLE keeps its content over a write to CFG or POLY, as these
equalities of states say, is the model's, no rule of the spec: R203 leaves the content after an invalidation
unspecified (log 6, DESIGN CHOICE). -/
def Obligations.RegisterWritesStoreAndUnbind : Prop :=
  ∀ (v : Word) (s : State),
    exec (.wrCfg v) s =
      .next { s with cfgWidth := v.extractLsb' 0 7, cfgReflect := v.getLsbD 8, bound := false,
                     tableValid := false, response := some .okayWrite } ∧
    (∀ t, exec (.wrCfg v) s = .next t →
      exec .rdCfg t = .next { t with response := some (.okayRead (v &&& 0x17F#64)) }) ∧
    exec (.wrPoly v) s =
      .next { s with poly := v, bound := false, tableValid := false, response := some .okayWrite } ∧
    exec (.wrInit v) s = .next { s with init := v, bound := false, response := some .okayWrite } ∧
    exec (.wrXorout v) s = .next { s with xorout := v, bound := false, response := some .okayWrite } ∧
    exec (.wrData v) s = .next { s with data := v, response := some .okayWrite }

/-- R217, R218: CFG reads WIDTH + 256·REFLECT_IO; POLY, INIT, XOROUT and DATA read all 64 bits; CMD reads 0 and issues
no command; nothing else changes. -/
def Obligations.StoredRegistersAndCmdRead : Prop :=
  ∀ s : State,
    exec .rdCfg s =
      .next { s with
        response := some (.okayRead (BitVec.ofNat 64 (s.cfgWidth.toNat + 256 * s.cfgReflect.toNat))) } ∧
    exec .rdPoly s = .next { s with response := some (.okayRead s.poly) } ∧
    exec .rdInit s = .next { s with response := some (.okayRead s.init) } ∧
    exec .rdXorout s = .next { s with response := some (.okayRead s.xorout) } ∧
    exec .rdData s = .next { s with response := some (.okayRead s.data) } ∧
    exec .rdCmd s = .next { s with response := some (.okayRead 0#64) }

/-- R219, R31, R33: STATUS is BOUND + 2·TABLE_VALID + 4·ERR + 256·ERR_CODE; CAP is HAS_TABLE + 2·WIDE_REFUSE +
256·64; RESULT and ERR_INFO read as stored; nothing else changes. -/
def Obligations.StatusRegistersRead : Prop :=
  ∀ s : State,
    exec .rdResult s = .next { s with response := some (.okayRead s.result) } ∧
    exec .rdStatus s =
      .next { s with
        response := some (.okayRead (BitVec.ofNat 64
          (s.bound.toNat + 2 * s.tableValid.toNat + 4 * s.err.toNat + 256 * s.errCode.toNat))) } ∧
    exec .rdErrInfo s = .next { s with response := some (.okayRead s.errInfo) } ∧
    exec .rdCap s =
      .next { s with
        response := some (.okayRead (BitVec.ofNat 64
          (s.params.hasTable.toNat + 2 * (decide (s.params.wideAppend = .refuse)).toNat + 256 * 64))) }

/-- R33: CAP is a constant of the build parameters, 0x4001 with the defaults; no step, reset pulse included, changes
what it reads. -/
def Obligations.CapabilityIsConstant : Prop :=
  capWord Params.defaults = 0x0000000000004001#64 ∧
  (∀ s t : State, step s = .next t → capWord t.params = capWord s.params)

/-- R190 and R191: CHECK reads REMAINDER ^ XOROUT in every state, REMAINDER reads REMAINDER, CHECK ^ XOROUT is
REMAINDER, and while bound both are below 2^W. -/
def Obligations.CheckAndRemainderRead : Prop :=
  ∀ s : State,
    exec .rdCheck s = .next { s with response := some (.okayRead (s.remainder ^^^ s.xorout)) } ∧
    exec .rdRemainder s = .next { s with response := some (.okayRead s.remainder) } ∧
    (s.remainder ^^^ s.xorout) ^^^ s.xorout = s.remainder ∧
    (Inv s → s.bound = true →
      (s.remainder ^^^ s.xorout).toNat < 2 ^ s.width ∧ s.remainder.toNat < 2 ^ s.width)

/-- R206: the window reads TABLE[d] when the table is built in and valid, else 0; entry 0 always reads 0; a write to
the window is a bus error. -/
def Obligations.TableWindowRead : Prop :=
  ∀ (d : BitVec 8) (s : State),
    (s.params.hasTable = true → s.tableValid = true →
      exec (.rdTable d) s = .next { s with response := some (.okayRead (s.table[d.toNat]'d.isLt)) }) ∧
    (s.params.hasTable = false ∨ s.tableValid = false →
      exec (.rdTable d) s = .next { s with response := some (.okayRead 0#64) }) ∧
    (Inv s → exec (.rdTable 0#8) s = .next { s with response := some (.okayRead 0#64) }) ∧
    (∀ v, exec (decode (.bus (.write (BitVec.ofNat 12 (0x800 + 8 * d.toNat)) .b8 v))) s =
      .fault (.busError (BitVec.ofNat 12 (0x800 + 8 * d.toNat))))

/-- R67: a read changes nothing but the answer, a second read answers the same, and a register write is
idempotent. -/
def Obligations.ReadsArePureAndWritesIdempotent : Prop :=
  (∀ (o : Offset) (size : AccessSize) (s t : State), exec (decode (.bus (.read o size))) s = .next t →
    (∃ v, t = { s with response := some (.okayRead v) }) ∧
    exec (decode (.bus (.read o size))) t = .next t) ∧
  (∀ (o : Offset) (v : Word) (s t : State), o ≠ 0x028#12 →
    exec (decode (.bus (.write o .b8 v))) s = .next t → exec (decode (.bus (.write o .b8 v))) t = .next t)

/-! ### Errors (60_exceptions.md) -/

/-- R245: a rejected command changes ERR, ERR_CODE and ERR_INFO, which takes the full command word, and nothing else
(the answer OKAY apart). -/
def Obligations.RejectedCommandOnlyLatches : Prop :=
  ∀ (w : Word) (s t : State), s.err = false → exec (.wrCmd w) s = .next t → t.err = true →
    t = { s with err := true, errCode := t.errCode, errInfo := w, response := some .okayWrite } ∧
    1 ≤ t.errCode.toNat ∧ t.errCode.toNat ≤ 6

/-- R246: while ERR = 1 every word but 0x08 is dropped without any effect; register accesses are still performed. -/
def Obligations.LatchedErrorDropsCommands : Prop :=
  ∀ s : State, s.err = true →
    (∀ w : Word, w ≠ 0x0000000000000008#64 →
      exec (.wrCmd w) s = .next { s with response := some .okayWrite }) ∧
    (∀ v : Word, ∃ t, exec (.wrPoly v) s = .next t ∧ t.poly = v ∧ t.err = true ∧
      t.errCode = s.errCode ∧ t.errInfo = s.errInfo) ∧
    (∀ (t : Transaction), acceptedAccess t = true → ∃ u, exec (decode (.bus t)) s = .next u)

/-- R247 and R240: which error code a command leaves, by the fixed order of the checks; 0 when none holds. -/
def Obligations.FirstCheckDecidesTheCode : Prop :=
  ∀ (w : Word) (s t : State), Inv s → s.err = false → exec (.wrCmd w) s = .next t →
    let op := w.toNat % 256
    let n := w.toNat / 256 % 128
    t.errCode.toNat =
      if legalCommandWord w = false then 1
      else if ((op = 3 ∨ op = 5) ∧ 8 < n) ∨ ((op = 4 ∨ op = 6) ∧ 64 < n) then 5
      else if (op = 1 ∨ op = 2 ∨ op = 5 ∨ op = 7) ∧ s.configValid = false then 2
      else if (op = 3 ∨ op = 4) ∧ s.bound = false then 4
      else if op = 2 ∧ 2 ^ s.width ≤ s.data.toNat then 3
      else if op = 4 ∧ s.params.wideAppend = .refuse ∧ s.width < n then 6
      else 0

/-- R241: a well-formed command in range, with its precondition met, completes with no error, for every DATA and
REMAINDER (INIT_CUSTOM's own value must fit, and under `refuse` a group must not be wider than the register). -/
def Obligations.ValidCommandsNeverFail : Prop :=
  ∀ (w : Word) (s : State), s.err = false → legalCommandWord w = true →
    (w.toNat % 256 = 3 ∨ w.toNat % 256 = 5 → w.toNat / 256 % 128 ≤ 8) →
    (w.toNat % 256 = 4 ∨ w.toNat % 256 = 6 → w.toNat / 256 % 128 ≤ 64) →
    (w.toNat % 256 = 1 ∨ w.toNat % 256 = 2 ∨ w.toNat % 256 = 5 ∨ w.toNat % 256 = 7 → s.configValid = true) →
    (w.toNat % 256 = 3 ∨ w.toNat % 256 = 4 → s.bound = true) →
    (w.toNat % 256 = 2 → fits s.data s.width = true) →
    (w.toNat % 256 = 4 → s.params.wideAppend = .serial ∨ w.toNat / 256 % 128 ≤ s.width) →
    ∃ t, exec (.wrCmd w) s = .next t ∧ t.err = false

/-- R222 and R249: the word 0x08 clears the latch in every state and changes nothing else; a malformed one is dropped
while latched and illegal otherwise. -/
def Obligations.ClearErrorIsTheReturn : Prop :=
  ∀ s : State,
    exec .clearError s =
      .next { s with err := false, errCode := 0#4, errInfo := 0#64, response := some .okayWrite } ∧
    exec (.wrCmd 0x0000000000000008#64) s = exec .clearError s ∧
    (∀ w : Word, w.toNat % 256 = 8 → 8 < w.toNat →
      (s.err = true → exec (.wrCmd w) s = .next { s with response := some .okayWrite }) ∧
      (s.err = false → exec (.wrCmd w) s =
        .next { s with err := true, errCode := 1#4, errInfo := w, response := some .okayWrite }))

/-! ### Reflection (40_reflect.md) -/

/-- R130: bit i of `reflect(v, w)` is bit w−1−i of v below w, and 0 from w on. -/
def Obligations.ReflectReversesTheLowBits : Prop :=
  ∀ (v : Word) (w i : Nat), w ≤ 64 →
    (reflect v w).getLsbD i = (decide (i < w) && v.getLsbD (w - 1 - i))

/-- R132, R133: the corner values of the function; reflecting twice keeps the low w bits, and is the identity below
2^w. -/
def Obligations.ReflectCornersAndRoundTrip : Prop :=
  ∀ v : Word, reflect v 0 = 0#64 ∧ reflect v 1 = v &&& 1#64 ∧
    (∀ w : Nat, w ≤ 64 →
      (reflect v w).toNat < 2 ^ w ∧ reflect v w = reflect (v &&& ones w) w ∧
      reflect (reflect v w) w = v &&& ones w ∧ (v.toNat < 2 ^ w → reflect (reflect v w) w = v))

/-- R131: REFLECT, in every state with ERR = 0, writes RESULT and nothing else; N > 64 is COUNT_RANGE. -/
def Obligations.ReflectWritesResult : Prop :=
  ∀ (n : BitVec 7) (s : State),
    (s.err = true → exec (.reflect n) s = .next { s with response := some .okayWrite }) ∧
    (s.err = false → 64 < n.toNat → exec (.reflect n) s =
      .next { s with err := true, errCode := 5#4, errInfo := BitVec.ofNat 64 (6 + 256 * n.toNat),
                     response := some .okayWrite }) ∧
    (s.err = false → n.toNat ≤ 64 →
      exec (.reflect n) s =
        .next { s with result := reflect s.data n.toNat, response := some .okayWrite }) ∧
    (∀ w : Word, w.toNat % 256 = 6 → 2 ^ 15 ≤ w.toNat → s.err = false → exec (.wrCmd w) s =
      .next { s with err := true, errCode := 1#4, errInfo := w, response := some .okayWrite })

/-! ### Parameters and construction (41_params_init.md) -/

/-- R140: ConfigValid says 1 ≤ W ≤ 64 and POLY, INIT and XOROUT below 2^W; INIT, INIT_CUSTOM, COMPUTE and
BUILD_TABLE are rejected with CONFIG_INVALID when it is false, the appends do not look at it. -/
def Obligations.ConfigValidIsCheckedByFourCommands : Prop :=
  ∀ s : State,
    (s.configValid = true ↔
      1 ≤ s.width ∧ s.width ≤ 64 ∧ s.poly.toNat < 2 ^ s.width ∧ s.init.toNat < 2 ^ s.width ∧
        s.xorout.toNat < 2 ^ s.width) ∧
    (s.err = false → s.configValid = false → ∀ i : Instr,
      (i = .init ∨ i = .initCustom ∨ i = .buildTable ∨ ∃ n : BitVec 7, n.toNat ≤ 8 ∧ i = .compute n) →
      ∃ w, encode i = .cmd w ∧ exec i s =
        .next { s with err := true, errCode := 2#4, errInfo := w, response := some .okayWrite }) ∧
    (∀ (n : BitVec 7) (t : State), s.err = false →
      exec (.appendOctets n) s = .next t ∨ exec (.appendBits n) s = .next t → t.err = true →
      t.errCode ≠ 2#4)

/-- R142: INIT. -/
def Obligations.InitConstructs : Prop :=
  ∀ s : State,
    (s.err = true → exec .init s = .next { s with response := some .okayWrite }) ∧
    (s.err = false → s.configValid = false → exec .init s =
      .next { s with err := true, errCode := 2#4, errInfo := 0x1#64, response := some .okayWrite }) ∧
    (s.err = false → s.configValid = true → exec .init s =
      .next { s with remainder := if s.cfgReflect then reflect s.init s.width else s.init, bound := true,
                     response := some .okayWrite })

/-- R143: INIT_CUSTOM; DATA at or above 2^W is INIT_VALUE_TOO_WIDE. -/
def Obligations.InitCustomConstructsFromData : Prop :=
  ∀ s : State,
    (s.err = true → exec .initCustom s = .next { s with response := some .okayWrite }) ∧
    (s.err = false → s.configValid = false → exec .initCustom s =
      .next { s with err := true, errCode := 2#4, errInfo := 0x2#64, response := some .okayWrite }) ∧
    (s.err = false → s.configValid = true → 2 ^ s.width ≤ s.data.toNat → exec .initCustom s =
      .next { s with err := true, errCode := 3#4, errInfo := 0x2#64, response := some .okayWrite }) ∧
    (s.err = false → s.configValid = true → s.data.toNat < 2 ^ s.width → exec .initCustom s =
      .next { s with remainder := if s.cfgReflect then reflect s.data s.width else s.data, bound := true,
                     response := some .okayWrite })

/-! ### Division and octets (42_append_octets.md) -/

/-- R160, bit by bit: the retiring coefficient t, the shift toward the higher powers, and t times the polynomial, in
its bit-reversed form when reflected. -/
def Obligations.CycleBitByBit : Prop :=
  ∀ (W : Nat) (P r : Word) (b : Bool) (i : Nat), 1 ≤ W → W ≤ 64 → fits P W = true → fits r W = true →
    (cycle { width := W, reflected := false, poly := P } r b).getLsbD i =
      (decide (i < W) && ((decide (1 ≤ i) && r.getLsbD (i - 1)) ^^ ((r.getLsbD (W - 1) ^^ b) && P.getLsbD i))) ∧
    (cycle { width := W, reflected := true, poly := P } r b).getLsbD i =
      (decide (i < W) && (r.getLsbD (i + 1) ^^ ((r.getLsbD 0 ^^ b) && P.getLsbD (W - 1 - i))))

/-- The engine is polynomial long division (R12, R160): appending bits to a remainder r leaves, modulo the generator
x^W + P, r times x^n plus the message times x^W, in either orientation. -/
def Obligations.EngineIsPolynomialDivision : Prop :=
  ∀ (W : Nat) (P r : Word) (bits : List Bool), 1 ≤ W → W ≤ 64 → fits P W = true → fits r W = true →
    let G : Polynomial (ZMod 2) :=
      Polynomial.X ^ W + ∑ i ∈ Finset.range W, if P.getLsbD i then Polynomial.X ^ i else 0
    let message : Polynomial (ZMod 2) :=
      ∑ k ∈ Finset.range bits.length, if bits.getD k false then Polynomial.X ^ (bits.length - 1 - k) else 0
    let msbLeft (v : Word) : Polynomial (ZMod 2) :=
      ∑ i ∈ Finset.range W, if v.getLsbD i then Polynomial.X ^ i else 0
    let lsbLeft (v : Word) : Polynomial (ZMod 2) :=
      ∑ i ∈ Finset.range W, if v.getLsbD i then Polynomial.X ^ (W - 1 - i) else 0
    G ∣ Polynomial.X ^ bits.length * msbLeft r + Polynomial.X ^ W * message -
      msbLeft (bits.foldl (cycle { width := W, reflected := false, poly := P }) r) ∧
    G ∣ Polynomial.X ^ bits.length * lsbLeft r + Polynomial.X ^ W * message -
      lsbLeft (bits.foldl (cycle { width := W, reflected := true, poly := P }) r)

/-- R162: the per-byte form with the table function T is the octet step, for every width, orientation, polynomial,
remainder and octet. -/
def Obligations.BytewiseFormIsTheOctetStep : Prop :=
  ∀ (D : Divisor) (r : Word) (o : Octet), 1 ≤ D.width → D.width ≤ 64 → fits D.poly D.width = true →
    fits r D.width = true →
    octetStepBytewise D (tableRemainder D) r o = octetStep D r o

/-- R166: an engine value never exceeds W bits. -/
def Obligations.EngineStaysBelowTwoToTheWidth : Prop :=
  ∀ (D : Divisor) (r : Word), 1 ≤ D.width → D.width ≤ 64 → fits D.poly D.width = true →
    r.toNat < 2 ^ D.width →
    (∀ b, (cycle D r b).toNat < 2 ^ D.width) ∧ (∀ o, (octetStep D r o).toNat < 2 ^ D.width) ∧
    (∀ data n, (bitLoop D data n r).toNat < 2 ^ D.width)

/-- R167: the cycle and the octet step are linear over GF(2) in remainder and input together. -/
def Obligations.EngineIsLinear : Prop :=
  ∀ D : Divisor,
    (∀ (r1 r2 : Word) (b1 b2 : Bool),
      cycle D (r1 ^^^ r2) (b1 ^^ b2) = cycle D r1 b1 ^^^ cycle D r2 b2) ∧
    (∀ (r1 r2 : Word) (o1 o2 : Octet),
      octetStep D (r1 ^^^ r2) (o1 ^^^ o2) = octetStep D r1 o1 ^^^ octetStep D r2 o2) ∧
    (∀ (r : Word) (o : Octet), octetStep D r o = octetStep D r 0#8 ^^^ octetStep D 0#64 o)

/-- R163: APPEND_OCTETS folds the octet step, by the path R204 selects, over lanes 0..n−1 of DATA; the checks in
order; n = 0 changes no register. In a state outside Inv the path may matter, and the model follows the table
(log 7, DEDUCED). -/
def Obligations.AppendOctetsFoldsTheLanes : Prop :=
  ∀ (n : BitVec 7) (s : State),
    (s.err = true → exec (.appendOctets n) s = .next { s with response := some .okayWrite }) ∧
    (s.err = false → 8 < n.toNat → exec (.appendOctets n) s =
      .next { s with err := true, errCode := 5#4, errInfo := BitVec.ofNat 64 (3 + 256 * n.toNat),
                     response := some .okayWrite }) ∧
    (s.err = false → n.toNat ≤ 8 → s.bound = false → exec (.appendOctets n) s =
      .next { s with err := true, errCode := 4#4, errInfo := BitVec.ofNat 64 (3 + 256 * n.toNat),
                     response := some .okayWrite }) ∧
    (s.err = false → n.toNat ≤ 8 → s.bound = true → exec (.appendOctets n) s =
      .next { s with
        remainder := (List.range n.toNat).foldl
          (fun r i => s.stepOctet r (s.data.extractLsb' (8 * i) 8)) s.remainder,
        response := some .okayWrite }) ∧
    (s.err = false → s.bound = true →
      exec (.appendOctets 0#7) s = .next { s with response := some .okayWrite })

/-- R164 in commands: n1 lanes and then the next n2 lanes, in two appends, leave the REMAINDER of one append of
n1 + n2. -/
def Obligations.OctetChunkInvariance : Prop :=
  ∀ (s t : State) (n1 n2 : Nat), s.err = false → s.bound = true → n1 + n2 ≤ 8 →
    performAll [writeCmd (BitVec.ofNat 64 (3 + 256 * (n1 + n2)))] s = .next t →
    ∃ u, performAll [writeCmd (BitVec.ofNat 64 (3 + 256 * n1)),
        .write 0x020#12 .b8 (s.data >>> (8 * n1)), writeCmd (BitVec.ofNat 64 (3 + 256 * n2))] s = .next u ∧
      u.remainder = t.remainder ∧ u.bound = true ∧ u.err = false

/-! ### Bit groups (43_append_bits.md) -/

/-- APPEND_BITS completes whenever it is in range, bound and not refused (R241), and writes REMAINDER only. The value
is given in the model's own form, R182's whole octets by the path of R204 and then the cycles of the rest (log 7,
DEDUCED); outside Inv it need not be the value of R180. `AppendBitsIsOneCyclePerBit` says that under Inv it is. -/
def Obligations.AppendBitsWritesRemainder : Prop :=
  ∀ (n : BitVec 7) (s : State), s.err = false → n.toNat ≤ 64 → s.bound = true →
    (s.params.wideAppend = .serial ∨ n.toNat ≤ s.width) →
    exec (.appendBits n) s =
      .next { s with remainder := groupLoop s.stepOctet s.divisor s.data n.toNat s.remainder,
                     response := some .okayWrite }

/-- R180 and R181: in every state that meets the invariant, APPEND_BITS applies exactly n division cycles in stream
order, n > W included, by whichever path; the checks in order. -/
def Obligations.AppendBitsIsOneCyclePerBit : Prop :=
  ∀ (n : BitVec 7) (s : State), Inv s →
    (s.err = true → exec (.appendBits n) s = .next { s with response := some .okayWrite }) ∧
    (s.err = false → 64 < n.toNat → exec (.appendBits n) s =
      .next { s with err := true, errCode := 5#4, errInfo := BitVec.ofNat 64 (4 + 256 * n.toNat),
                     response := some .okayWrite }) ∧
    (s.err = false → n.toNat ≤ 64 → s.bound = false → exec (.appendBits n) s =
      .next { s with err := true, errCode := 4#4, errInfo := BitVec.ofNat 64 (4 + 256 * n.toNat),
                     response := some .okayWrite }) ∧
    (s.err = false → n.toNat ≤ 64 → s.bound = true → s.params.wideAppend = .refuse → s.width < n.toNat →
      exec (.appendBits n) s =
        .next { s with err := true, errCode := 6#4, errInfo := BitVec.ofNat 64 (4 + 256 * n.toNat),
                       response := some .okayWrite }) ∧
    (s.err = false → n.toNat ≤ 64 → s.bound = true →
      (s.params.wideAppend = .serial ∨ n.toNat ≤ s.width) →
      exec (.appendBits n) s =
        .next { s with
          remainder := (List.range n.toNat).foldl
            (fun r k => cycle s.divisor r
              (if s.cfgReflect then s.data.getLsbD k else s.data.getLsbD (n.toNat - 1 - k))) s.remainder,
          response := some .okayWrite })

/-- R182: whole octets and a partial octet give the cycles of R180. -/
def Obligations.GroupDecompositionIsSerial : Prop :=
  ∀ (D : Divisor) (data r : Word) (n : Nat), n ≤ 64 →
    groupLoop (octetStep D) D data n r = bitLoop D data n r

/-- R183: N1 bits of v1 and then N2 bits of v2 leave the REMAINDER of one append of N1 + N2 bits of their
concatenation, the N1 bits first in the stream. -/
def Obligations.BitChunkInvariance : Prop :=
  ∀ (s : State) (v1 v2 c : Word) (n1 n2 : Nat), Inv s → s.err = false → s.bound = true → n1 + n2 ≤ 64 →
    (s.params.wideAppend = .serial ∨ n1 + n2 ≤ s.width) →
    c = (if s.cfgReflect then (v1 &&& ones n1) ||| ((v2 &&& ones n2) <<< n1)
         else ((v1 &&& ones n1) <<< n2) ||| (v2 &&& ones n2)) →
    ∃ t u,
      performAll [.write 0x020#12 .b8 v1, writeCmd (BitVec.ofNat 64 (4 + 256 * n1)),
        .write 0x020#12 .b8 v2, writeCmd (BitVec.ofNat 64 (4 + 256 * n2))] s = .next t ∧
      performAll [.write 0x020#12 .b8 c, writeCmd (BitVec.ofNat 64 (4 + 256 * (n1 + n2)))] s = .next u ∧
      t.remainder = u.remainder ∧ t.err = false ∧ u.err = false

/-- R184: an octet as eight 1-bit groups in stream order leaves the REMAINDER of one APPEND_OCTETS of it. -/
def Obligations.EightBitsAreOneOctet : Prop :=
  ∀ (s : State) (o : Octet), Inv s → s.err = false → s.bound = true →
    ∃ t u,
      performAll ((List.range 8).flatMap fun k =>
        [.write 0x020#12 .b8 (if octetBit s.cfgReflect o k then 1#64 else 0#64),
          writeCmd 0x0000000000000104#64]) s = .next t ∧
      performAll [.write 0x020#12 .b8 (o.setWidth 64), writeCmd 0x0000000000000103#64] s = .next u ∧
      t.remainder = u.remainder ∧ t.err = false ∧ u.err = false

/-- The source's scenario (95_test_vectors.md L1-6, 90_conflicts.md C2): a custom initial value of 0 and one 1-bit
leave the polynomial, in the register's own orientation. -/
def Obligations.OneBitLeavesThePolynomial : Prop :=
  ∀ s : State, s.err = false → s.configValid = true →
    ∃ t, performAll [.write 0x020#12 .b8 0#64, writeCmd 0x2#64, .write 0x020#12 .b8 1#64, writeCmd 0x104#64] s =
        .next t ∧
      t.remainder = (if s.cfgReflect then reflect s.poly s.width else s.poly) ∧ t.err = false

/-! ### Compute (44_check_compute.md) -/

/-- R192: COMPUTE, its octet steps by the path R204 selects. In a state outside Inv the path may matter, and the
model follows the table (log 7, DEDUCED). -/
def Obligations.ComputeConstructsAndAppends : Prop :=
  ∀ (n : BitVec 7) (s : State),
    (s.err = true → exec (.compute n) s = .next { s with response := some .okayWrite }) ∧
    (s.err = false → 8 < n.toNat → exec (.compute n) s =
      .next { s with err := true, errCode := 5#4, errInfo := BitVec.ofNat 64 (5 + 256 * n.toNat),
                     response := some .okayWrite }) ∧
    (s.err = false → n.toNat ≤ 8 → s.configValid = false → exec (.compute n) s =
      .next { s with err := true, errCode := 2#4, errInfo := BitVec.ofNat 64 (5 + 256 * n.toNat),
                     response := some .okayWrite }) ∧
    (s.err = false → n.toNat ≤ 8 → s.configValid = true → exec (.compute n) s =
      .next { s with
        remainder := (List.range n.toNat).foldl
          (fun r i => s.stepOctet r (s.data.extractLsb' (8 * i) 8))
          (if s.cfgReflect then reflect s.init s.width else s.init),
        bound := true, response := some .okayWrite })

/-- R193: after COMPUTE of zero octets, and after INIT, CHECK reads seed(INIT) ^ XOROUT. -/
def Obligations.ZeroLengthCheck : Prop :=
  ∀ (s : State) (w : Word), s.err = false → s.configValid = true → w = 0x5#64 ∨ w = 0x1#64 →
    ∃ t, performAll [writeCmd w, .read 0x030#12 .b8] s = .next t ∧
      t.response =
        some (.okayRead ((if s.cfgReflect then reflect s.init s.width else s.init) ^^^ s.xorout))

/-- R194: `crc.compute.msg S` and `crc.init` with any split of S into APPEND_OCTETS commands leave the same CHECK. -/
def Obligations.ComputeMessageAgreesWithAnySplit : Prop :=
  ∀ (s : State) (chunks : List (List Octet)), s.err = false → s.configValid = true →
    (∀ c ∈ chunks, c.length ≤ 8) →
    ∃ t u,
      performStmts (pseudoComputeMsg chunks.flatten) s = some (.next t) ∧
      performStmts ([.init] ++ chunks.flatMap appendChunk ++ [.rd .check]) s = some (.next u) ∧
      t.response = u.response ∧ t.remainder = u.remainder ∧ t.err = false ∧ u.err = false

/-- R108: `crc.restore` sets REMAINDER to x, for every x below 2^W and both orientations, and binds the engine; the
value written to DATA is x, or what the host read from RESULT when reflected. -/
def Obligations.RestoreSetsTheRemainder : Prop :=
  ∀ (s : State) (x : Word), s.err = false → s.configValid = true → x.toNat < 2 ^ s.width →
    ∃ (t u : State) (v : Word),
      performStmts (pseudoRestoreFirst s.cfgReflect s.width x) s = some (.next t) ∧
      (if s.cfgReflect then t.response = some (.okayRead v) else v = x) ∧
      performStmts (pseudoRestoreLast v) t = some (.next u) ∧
      u.remainder = x ∧ u.bound = true ∧ u.err = false

/-! ### The table (45_table.md) -/

/-- R202: T in its equal forms, its bound and its linearity. -/
def Obligations.TableFunctionLaws : Prop :=
  ∀ (D : Divisor), 1 ≤ D.width → D.width ≤ 64 → fits D.poly D.width = true →
    (∀ d, tableRemainder D d = octetStep D 0#64 d) ∧
    tableRemainder D 0#8 = 0#64 ∧
    (∀ d1 d2, tableRemainder D (d1 ^^^ d2) = tableRemainder D d1 ^^^ tableRemainder D d2) ∧
    (∀ d, (tableRemainder D d).toNat < 2 ^ D.width) ∧
    (D.reflected = false → 8 ≤ D.width → ∀ d : Octet, tableRemainder D d =
      (List.range 8).foldl (fun r _ => cycle D r false) (d.setWidth 64 <<< (D.width - 8))) ∧
    (D.reflected = true → 8 ≤ D.width → ∀ d : Octet, tableRemainder D d =
      (List.range 8).foldl (fun r _ => cycle D r false) (d.setWidth 64))

/-- R200: BUILD_TABLE. -/
def Obligations.BuildTableFillsEveryEntry : Prop :=
  ∀ s : State,
    (s.err = true → exec .buildTable s = .next { s with response := some .okayWrite }) ∧
    (s.err = false → s.configValid = false → exec .buildTable s =
      .next { s with err := true, errCode := 2#4, errInfo := 0x7#64, response := some .okayWrite }) ∧
    (s.err = false → s.configValid = true → s.params.hasTable = true →
      ∃ table : Vector Word 256,
        exec .buildTable s =
          .next { s with table := table, tableValid := true, response := some .okayWrite } ∧
        ∀ d : Octet, table[d.toNat]'d.isLt = octetStep s.divisor 0#64 d) ∧
    (s.err = false → s.configValid = true → s.params.hasTable = false →
      exec .buildTable s = .next { s with response := some .okayWrite })

/-- R205: the path never changes a result: from a state that meets the invariant, every command leaves the same
registers whether the table was valid or not, TABLE_VALID itself apart. -/
def Obligations.PathNeverChangesAResult : Prop :=
  ∀ (w : Word) (s t : State), Inv s → exec (.wrCmd w) s = .next t →
    ∃ b, exec (.wrCmd w) { s with tableValid := false } = .next { t with tableValid := b }
end

