-- ==== Sys2Proof/Laws/State.lean ====
section
/-! SUPPORT. One lemma per field per update of State, true by rfl, so that no proof unfolds a record update. -/

namespace Sys2Proof.Machine

variable (s : State) (r word : Word) (e : CmdError) (t : Transaction)

/-! ### unbind -/

@[simp] theorem unbind_cfgWidth : s.unbind.cfgWidth = s.cfgWidth := rfl
@[simp] theorem unbind_cfgReflect : s.unbind.cfgReflect = s.cfgReflect := rfl
@[simp] theorem unbind_poly : s.unbind.poly = s.poly := rfl
@[simp] theorem unbind_init : s.unbind.init = s.init := rfl
@[simp] theorem unbind_xorout : s.unbind.xorout = s.xorout := rfl
@[simp] theorem unbind_data : s.unbind.data = s.data := rfl
@[simp] theorem unbind_remainder : s.unbind.remainder = s.remainder := rfl
@[simp] theorem unbind_result : s.unbind.result = s.result := rfl
@[simp] theorem unbind_bound : s.unbind.bound = false := rfl
@[simp] theorem unbind_tableValid : s.unbind.tableValid = s.tableValid := rfl
@[simp] theorem unbind_err : s.unbind.err = s.err := rfl
@[simp] theorem unbind_errCode : s.unbind.errCode = s.errCode := rfl
@[simp] theorem unbind_errInfo : s.unbind.errInfo = s.errInfo := rfl
@[simp] theorem unbind_table : s.unbind.table = s.table := rfl
@[simp] theorem unbind_params : s.unbind.params = s.params := rfl
@[simp] theorem unbind_pending : s.unbind.pending = s.pending := rfl
@[simp] theorem unbind_response : s.unbind.response = s.response := rfl

/-! ### invalidateTable -/

@[simp] theorem invalidateTable_cfgWidth : s.invalidateTable.cfgWidth = s.cfgWidth := rfl
@[simp] theorem invalidateTable_cfgReflect : s.invalidateTable.cfgReflect = s.cfgReflect := rfl
@[simp] theorem invalidateTable_poly : s.invalidateTable.poly = s.poly := rfl
@[simp] theorem invalidateTable_init : s.invalidateTable.init = s.init := rfl
@[simp] theorem invalidateTable_xorout : s.invalidateTable.xorout = s.xorout := rfl
@[simp] theorem invalidateTable_data : s.invalidateTable.data = s.data := rfl
@[simp] theorem invalidateTable_remainder : s.invalidateTable.remainder = s.remainder := rfl
@[simp] theorem invalidateTable_result : s.invalidateTable.result = s.result := rfl
@[simp] theorem invalidateTable_bound : s.invalidateTable.bound = s.bound := rfl
@[simp] theorem invalidateTable_tableValid : s.invalidateTable.tableValid = false := rfl
@[simp] theorem invalidateTable_err : s.invalidateTable.err = s.err := rfl
@[simp] theorem invalidateTable_errCode : s.invalidateTable.errCode = s.errCode := rfl
@[simp] theorem invalidateTable_errInfo : s.invalidateTable.errInfo = s.errInfo := rfl
@[simp] theorem invalidateTable_table : s.invalidateTable.table = s.table := rfl
@[simp] theorem invalidateTable_params : s.invalidateTable.params = s.params := rfl
@[simp] theorem invalidateTable_pending : s.invalidateTable.pending = s.pending := rfl
@[simp] theorem invalidateTable_response : s.invalidateTable.response = s.response := rfl

/-! ### bind -/

@[simp] theorem bind_cfgWidth : (s.bind r).cfgWidth = s.cfgWidth := rfl
@[simp] theorem bind_cfgReflect : (s.bind r).cfgReflect = s.cfgReflect := rfl
@[simp] theorem bind_poly : (s.bind r).poly = s.poly := rfl
@[simp] theorem bind_init : (s.bind r).init = s.init := rfl
@[simp] theorem bind_xorout : (s.bind r).xorout = s.xorout := rfl
@[simp] theorem bind_data : (s.bind r).data = s.data := rfl
@[simp] theorem bind_remainder : (s.bind r).remainder = r := rfl
@[simp] theorem bind_result : (s.bind r).result = s.result := rfl
@[simp] theorem bind_bound : (s.bind r).bound = true := rfl
@[simp] theorem bind_tableValid : (s.bind r).tableValid = s.tableValid := rfl
@[simp] theorem bind_err : (s.bind r).err = s.err := rfl
@[simp] theorem bind_errCode : (s.bind r).errCode = s.errCode := rfl
@[simp] theorem bind_errInfo : (s.bind r).errInfo = s.errInfo := rfl
@[simp] theorem bind_table : (s.bind r).table = s.table := rfl
@[simp] theorem bind_params : (s.bind r).params = s.params := rfl
@[simp] theorem bind_pending : (s.bind r).pending = s.pending := rfl
@[simp] theorem bind_response : (s.bind r).response = s.response := rfl

/-! ### raiseCmdError -/

@[simp] theorem raiseCmdError_cfgWidth : (raiseCmdError e word s).cfgWidth = s.cfgWidth := rfl
@[simp] theorem raiseCmdError_cfgReflect : (raiseCmdError e word s).cfgReflect = s.cfgReflect := rfl
@[simp] theorem raiseCmdError_poly : (raiseCmdError e word s).poly = s.poly := rfl
@[simp] theorem raiseCmdError_init : (raiseCmdError e word s).init = s.init := rfl
@[simp] theorem raiseCmdError_xorout : (raiseCmdError e word s).xorout = s.xorout := rfl
@[simp] theorem raiseCmdError_data : (raiseCmdError e word s).data = s.data := rfl
@[simp] theorem raiseCmdError_remainder : (raiseCmdError e word s).remainder = s.remainder := rfl
@[simp] theorem raiseCmdError_result : (raiseCmdError e word s).result = s.result := rfl
@[simp] theorem raiseCmdError_bound : (raiseCmdError e word s).bound = s.bound := rfl
@[simp] theorem raiseCmdError_tableValid : (raiseCmdError e word s).tableValid = s.tableValid := rfl
@[simp] theorem raiseCmdError_err : (raiseCmdError e word s).err = true := rfl
@[simp] theorem raiseCmdError_errCode : (raiseCmdError e word s).errCode = e.code := rfl
@[simp] theorem raiseCmdError_errInfo : (raiseCmdError e word s).errInfo = word := rfl
@[simp] theorem raiseCmdError_table : (raiseCmdError e word s).table = s.table := rfl
@[simp] theorem raiseCmdError_params : (raiseCmdError e word s).params = s.params := rfl
@[simp] theorem raiseCmdError_pending : (raiseCmdError e word s).pending = s.pending := rfl
@[simp] theorem raiseCmdError_response : (raiseCmdError e word s).response = s.response := rfl

/-! ### clearLatch -/

@[simp] theorem clearLatch_cfgWidth : (clearLatch s).cfgWidth = s.cfgWidth := rfl
@[simp] theorem clearLatch_cfgReflect : (clearLatch s).cfgReflect = s.cfgReflect := rfl
@[simp] theorem clearLatch_poly : (clearLatch s).poly = s.poly := rfl
@[simp] theorem clearLatch_init : (clearLatch s).init = s.init := rfl
@[simp] theorem clearLatch_xorout : (clearLatch s).xorout = s.xorout := rfl
@[simp] theorem clearLatch_data : (clearLatch s).data = s.data := rfl
@[simp] theorem clearLatch_remainder : (clearLatch s).remainder = s.remainder := rfl
@[simp] theorem clearLatch_result : (clearLatch s).result = s.result := rfl
@[simp] theorem clearLatch_bound : (clearLatch s).bound = s.bound := rfl
@[simp] theorem clearLatch_tableValid : (clearLatch s).tableValid = s.tableValid := rfl
@[simp] theorem clearLatch_err : (clearLatch s).err = false := rfl
@[simp] theorem clearLatch_errCode : (clearLatch s).errCode = 0#4 := rfl
@[simp] theorem clearLatch_errInfo : (clearLatch s).errInfo = 0#64 := rfl
@[simp] theorem clearLatch_table : (clearLatch s).table = s.table := rfl
@[simp] theorem clearLatch_params : (clearLatch s).params = s.params := rfl
@[simp] theorem clearLatch_pending : (clearLatch s).pending = s.pending := rfl
@[simp] theorem clearLatch_response : (clearLatch s).response = s.response := rfl

/-! ### withNext -/

@[simp] theorem withNext_cfgWidth : (s.withNext t).cfgWidth = s.cfgWidth := rfl
@[simp] theorem withNext_cfgReflect : (s.withNext t).cfgReflect = s.cfgReflect := rfl
@[simp] theorem withNext_poly : (s.withNext t).poly = s.poly := rfl
@[simp] theorem withNext_init : (s.withNext t).init = s.init := rfl
@[simp] theorem withNext_xorout : (s.withNext t).xorout = s.xorout := rfl
@[simp] theorem withNext_data : (s.withNext t).data = s.data := rfl
@[simp] theorem withNext_remainder : (s.withNext t).remainder = s.remainder := rfl
@[simp] theorem withNext_result : (s.withNext t).result = s.result := rfl
@[simp] theorem withNext_bound : (s.withNext t).bound = s.bound := rfl
@[simp] theorem withNext_tableValid : (s.withNext t).tableValid = s.tableValid := rfl
@[simp] theorem withNext_err : (s.withNext t).err = s.err := rfl
@[simp] theorem withNext_errCode : (s.withNext t).errCode = s.errCode := rfl
@[simp] theorem withNext_errInfo : (s.withNext t).errInfo = s.errInfo := rfl
@[simp] theorem withNext_table : (s.withNext t).table = s.table := rfl
@[simp] theorem withNext_params : (s.withNext t).params = s.params := rfl
@[simp] theorem withNext_pending : (s.withNext t).pending = .access t :: s.pending := rfl
@[simp] theorem withNext_response : (s.withNext t).response = s.response := rfl

/-! ### applyReset -/

@[simp] theorem applyReset_cfgWidth : s.applyReset.cfgWidth = 0#7 := rfl
@[simp] theorem applyReset_cfgReflect : s.applyReset.cfgReflect = false := rfl
@[simp] theorem applyReset_poly : s.applyReset.poly = 0#64 := rfl
@[simp] theorem applyReset_init : s.applyReset.init = 0#64 := rfl
@[simp] theorem applyReset_xorout : s.applyReset.xorout = 0#64 := rfl
@[simp] theorem applyReset_data : s.applyReset.data = 0#64 := rfl
@[simp] theorem applyReset_remainder : s.applyReset.remainder = 0#64 := rfl
@[simp] theorem applyReset_result : s.applyReset.result = 0#64 := rfl
@[simp] theorem applyReset_bound : s.applyReset.bound = false := rfl
@[simp] theorem applyReset_tableValid : s.applyReset.tableValid = false := rfl
@[simp] theorem applyReset_err : s.applyReset.err = false := rfl
@[simp] theorem applyReset_errCode : s.applyReset.errCode = 0#4 := rfl
@[simp] theorem applyReset_errInfo : s.applyReset.errInfo = 0#64 := rfl
@[simp] theorem applyReset_table : s.applyReset.table = Vector.replicate 256 0#64 := rfl
@[simp] theorem applyReset_params : s.applyReset.params = s.params := rfl
@[simp] theorem applyReset_pending : s.applyReset.pending = s.pending := rfl
@[simp] theorem applyReset_response : s.applyReset.response = none := rfl

/-! ### What each update leaves of the derived values -/

@[simp] theorem unbind_width : s.unbind.width = s.width := rfl
@[simp] theorem unbind_divisor : s.unbind.divisor = s.divisor := rfl
@[simp] theorem unbind_configValid : s.unbind.configValid = s.configValid := rfl
@[simp] theorem invalidateTable_width : s.invalidateTable.width = s.width := rfl
@[simp] theorem invalidateTable_divisor : s.invalidateTable.divisor = s.divisor := rfl
@[simp] theorem invalidateTable_configValid : s.invalidateTable.configValid = s.configValid := rfl
@[simp] theorem bind_width : (s.bind r).width = s.width := rfl
@[simp] theorem bind_divisor : (s.bind r).divisor = s.divisor := rfl
@[simp] theorem bind_configValid : (s.bind r).configValid = s.configValid := rfl
@[simp] theorem raiseCmdError_width : (raiseCmdError e word s).width = s.width := rfl
@[simp] theorem raiseCmdError_divisor : (raiseCmdError e word s).divisor = s.divisor := rfl
@[simp] theorem raiseCmdError_configValid : (raiseCmdError e word s).configValid = s.configValid := rfl
@[simp] theorem clearLatch_width : (clearLatch s).width = s.width := rfl
@[simp] theorem clearLatch_divisor : (clearLatch s).divisor = s.divisor := rfl
@[simp] theorem clearLatch_configValid : (clearLatch s).configValid = s.configValid := rfl
@[simp] theorem withNext_width : (s.withNext t).width = s.width := rfl
@[simp] theorem withNext_divisor : (s.withNext t).divisor = s.divisor := rfl
@[simp] theorem withNext_configValid : (s.withNext t).configValid = s.configValid := rfl

end Sys2Proof.Machine
end

