-- ==== Sys2Proof/Laws/Ops.lean ====
section
/-! SUPPORT. What each shared operation can do, said once; proofs cite these instead of unfolding the operations. -/

namespace Sys2Proof.Machine

/-! ### Answers -/

@[simp] theorem answerWrite_eq (s : State) : answerWrite s = .next { s with response := some .okayWrite } := rfl

@[simp] theorem answerRead_eq (rdata : Word) (s : State) :
    answerRead rdata s = .next { s with response := some (.okayRead rdata) } := rfl

@[simp] theorem raiseBusError_eq (t : Transaction) : raiseBusError t = .fault (.busError (accessOffset t)) := by
  cases t <;> rfl

/-! ### The checks and the issue of a command -/

@[simp] theorem firstError_nil : firstError [] = none := rfl

@[simp] theorem firstError_holds (e : CmdError) (rest : List (Bool × CmdError)) :
    firstError ((true, e) :: rest) = some e := rfl

@[simp] theorem firstError_passes (e : CmdError) (rest : List (Bool × CmdError)) :
    firstError ((false, e) :: rest) = firstError rest := rfl

/-- No check holds exactly when every condition of the list is false. -/
theorem firstError_eq_none_iff (checks : List (Bool × CmdError)) :
    firstError checks = none ↔ ∀ c ∈ checks, c.1 = false := by
  induction checks with
  | nil => simp
  | cons c rest ih =>
    obtain ⟨holds, e⟩ := c
    cases holds <;> simp [ih]

/-- The reported error is one of the list's. -/
theorem firstError_mem {checks : List (Bool × CmdError)} {e : CmdError} (h : firstError checks = some e) :
    (true, e) ∈ checks := by
  induction checks with
  | nil => simp at h
  | cons c rest ih =>
    obtain ⟨holds, e'⟩ := c
    cases holds
    · exact List.mem_cons_of_mem _ (ih (by simpa using h))
    · simp at h
      simp [h]

section Issue

variable {word : Word} {checks : List (Bool × CmdError)} {effect : State → State} {s t : State}

/-- R246: a command is dropped while the latch is set. -/
theorem issue_dropped (h : s.err = true) :
    issue word checks effect s = .next { s with response := some .okayWrite } := by
  simp [issue, h]

/-- R245, R247: the first check that holds is what is latched. -/
theorem issue_rejected (h : s.err = false) {e : CmdError} (he : firstError checks = some e) :
    issue word checks effect s = .next { raiseCmdError e word s with response := some .okayWrite } := by
  simp [issue, h, he]

/-- R247: with no check holding the effect is performed. -/
theorem issue_performed (h : s.err = false) (he : firstError checks = none) :
    issue word checks effect s = .next { effect s with response := some .okayWrite } := by
  simp [issue, h, he]

/-- Everything a command can do: be dropped, be rejected, or have its effect; it always answers a next state. -/
theorem issue_cases (h : issue word checks effect s = .next t) :
    (s.err = true ∧ t = { s with response := some .okayWrite }) ∨
    (∃ e, s.err = false ∧ firstError checks = some e ∧
      t = { raiseCmdError e word s with response := some .okayWrite }) ∨
    (s.err = false ∧ firstError checks = none ∧ t = { effect s with response := some .okayWrite }) := by
  by_cases hs : s.err = true
  · rw [issue_dropped hs] at h
    injection h with h
    exact .inl ⟨hs, h.symm⟩
  · rw [Bool.not_eq_true] at hs
    cases he : firstError checks with
    | some e =>
      rw [issue_rejected hs he] at h
      injection h with h
      exact .inr (.inl ⟨e, hs, rfl, h.symm⟩)
    | none =>
      rw [issue_performed hs he] at h
      injection h with h
      exact .inr (.inr ⟨hs, rfl, h.symm⟩)

theorem issue_answers (word : Word) (checks : List (Bool × CmdError)) (effect : State → State) (s : State) :
    ∃ t, issue word checks effect s = .next t := by
  cases hs : s.err with
  | true => exact ⟨_, issue_dropped hs⟩
  | false =>
    cases he : firstError checks with
    | some e => exact ⟨_, issue_rejected hs he⟩
    | none => exact ⟨_, issue_performed hs he⟩

end Issue

/-! ### Masks -/

theorem ones_toNat {w : Nat} (hw : w ≤ 64) : (ones w).toNat = 2 ^ w - 1 := by
  have h : 2 ^ w ≤ 2 ^ 64 := Nat.pow_le_pow_right (by decide) hw
  rw [ones, BitVec.toNat_ofNat, Nat.mod_eq_of_lt]
  have : 0 < 2 ^ w := Nat.two_pow_pos w
  omega

/-- `ones w` has exactly its low w bits set. -/
@[simp] theorem getLsbD_ones (w i : Nat) : (ones w).getLsbD i = (decide (i < 64) && decide (i < w)) := by
  simp [ones, BitVec.getLsbD_ofNat, Nat.testBit_two_pow_sub_one]

/-- `fits v w` says that every 1 bit of v lies below w. -/
theorem fits_iff_getLsbD (v : Word) (w : Nat) :
    fits v w = true ↔ ∀ i, w ≤ i → v.getLsbD i = false := by
  simp only [fits, beq_iff_eq]
  constructor
  · intro h i hi
    have hb := congrArg (fun x => x.getLsbD i) h
    by_cases h64 : i < 64
    · simpa only [BitVec.getLsbD_and, BitVec.getLsbD_not, getLsbD_ones, h64, Nat.not_lt.mpr hi, decide_true,
        decide_false, Bool.and_false, Bool.not_false, Bool.and_true, BitVec.getLsbD_zero] using hb
    · exact BitVec.getLsbD_of_ge v i (by omega)
  · intro h
    apply BitVec.eq_of_getLsbD_eq
    intro i hi
    by_cases hw : i < w
    · simp [hw, hi]
    · simp [h i (by omega)]

/-! ### The table -/

@[simp] theorem filledTable_get (D : Divisor) (d : Octet) :
    (filledTable D)[d.toNat]'d.isLt = tableRemainder D d := by
  simp [filledTable]

theorem stepOctet_inline {s : State} (h : s.tablePath = false) (r : Word) (o : Octet) :
    s.stepOctet r o = octetStep s.divisor r o := by
  simp [State.stepOctet, h]

theorem stepOctet_table {s : State} (h : s.tablePath = true) (r : Word) (o : Octet) :
    s.stepOctet r o = octetStepBytewise s.divisor (fun d => s.table[d.toNat]'d.isLt) r o := by
  simp [State.stepOctet, h]

theorem tablePath_iff (s : State) : s.tablePath = true ↔ s.params.hasTable = true ∧ s.tableValid = true := by
  simp [State.tablePath]

/-! ### The loops -/

@[simp] theorem octetLoop_zero (f : Word → Octet → Word) (data r : Word) : octetLoop f data 0 r = r := rfl

theorem octetLoop_succ (f : Word → Octet → Word) (data : Word) (n : Nat) (r : Word) :
    octetLoop f data (n + 1) r = f (octetLoop f data n r) (lane data n) := by
  simp [octetLoop, List.range_succ]

@[simp] theorem bitLoop_zero (D : Divisor) (data r : Word) : bitLoop D data 0 r = r := rfl

@[simp] theorem groupLoop_zero (f : Word → Octet → Word) (D : Divisor) (data r : Word) :
    groupLoop f D data 0 r = r := rfl

/-! ### The step and the host's run -/

theorem step_idle {s : State} (h : s.pending = []) : step s = .next s := by
  simp [step, h]

theorem step_reset {s : State} {rest : List Input} (h : s.pending = .reset :: rest) :
    step s = .next ({ s with pending := rest } : State).applyReset := by
  simp [step, h]

@[simp] theorem performAll_nil (s : State) : performAll [] s = .next s := rfl

theorem performAll_cons_next {t : Transaction} {s s' : State} (h : exec (decode (.bus t)) s = .next s')
    (rest : List Transaction) : performAll (t :: rest) s = performAll rest s' := by
  simp [performAll, h]

end Sys2Proof.Machine
end

