-- ==== Sys2Proof/Laws/PerInstr.lean ====
section
/-! SUPPORT. Per-instruction facts: a well-formed instruction's encoding is a legal command word or an accepted
access, unless it is ILLEGAL or BUS_ERROR (spec/30_encoding.md R104, R105). -/

namespace Sys2Proof.Laws

/-- The encoding of a well-formed instruction is one the block performs, ILLEGAL and BUS_ERROR apart. -/
def EncodingAccepted.Statement (i : Instr) : Prop :=
  wellFormed i = true →
    match encode i with
    | .cmd word => legalCommandWord word = true ∨ i = .illegal word
    | .bus t => acceptedAccess t = true ∨ i = .busError t

theorem EncodingAccepted.init : EncodingAccepted.Statement .init := fun _ => .inl (by decide)

theorem EncodingAccepted.initCustom : EncodingAccepted.Statement .initCustom := fun _ => .inl (by decide)

theorem EncodingAccepted.appendOctets (n : BitVec 7) : EncodingAccepted.Statement (.appendOctets n) :=
  fun _ => .inl (by revert n; decide)

theorem EncodingAccepted.appendBits (n : BitVec 7) : EncodingAccepted.Statement (.appendBits n) :=
  fun _ => .inl (by revert n; decide)

theorem EncodingAccepted.compute (n : BitVec 7) : EncodingAccepted.Statement (.compute n) :=
  fun _ => .inl (by revert n; decide)

theorem EncodingAccepted.reflect (n : BitVec 7) : EncodingAccepted.Statement (.reflect n) :=
  fun _ => .inl (by revert n; decide)

theorem EncodingAccepted.buildTable : EncodingAccepted.Statement .buildTable := fun _ => .inl (by decide)

theorem EncodingAccepted.clearError : EncodingAccepted.Statement .clearError := fun _ => .inl (by decide)

theorem EncodingAccepted.illegal (word : Word) : EncodingAccepted.Statement (.illegal word) := fun _ => .inr rfl

theorem EncodingAccepted.wrCfg (v : Word) : EncodingAccepted.Statement (.wrCfg v) := fun _ => .inl rfl

theorem EncodingAccepted.wrPoly (v : Word) : EncodingAccepted.Statement (.wrPoly v) := fun _ => .inl rfl

theorem EncodingAccepted.wrInit (v : Word) : EncodingAccepted.Statement (.wrInit v) := fun _ => .inl rfl

theorem EncodingAccepted.wrXorout (v : Word) : EncodingAccepted.Statement (.wrXorout v) := fun _ => .inl rfl

theorem EncodingAccepted.wrData (v : Word) : EncodingAccepted.Statement (.wrData v) := fun _ => .inl rfl

theorem EncodingAccepted.wrCmd (word : Word) : EncodingAccepted.Statement (.wrCmd word) := fun _ => .inl rfl

theorem EncodingAccepted.rdCfg : EncodingAccepted.Statement .rdCfg := fun _ => .inl rfl

theorem EncodingAccepted.rdPoly : EncodingAccepted.Statement .rdPoly := fun _ => .inl rfl

theorem EncodingAccepted.rdInit : EncodingAccepted.Statement .rdInit := fun _ => .inl rfl

theorem EncodingAccepted.rdXorout : EncodingAccepted.Statement .rdXorout := fun _ => .inl rfl

theorem EncodingAccepted.rdData : EncodingAccepted.Statement .rdData := fun _ => .inl rfl

theorem EncodingAccepted.rdCmd : EncodingAccepted.Statement .rdCmd := fun _ => .inl rfl

theorem EncodingAccepted.rdCheck : EncodingAccepted.Statement .rdCheck := fun _ => .inl rfl

theorem EncodingAccepted.rdRemainder : EncodingAccepted.Statement .rdRemainder := fun _ => .inl rfl

theorem EncodingAccepted.rdResult : EncodingAccepted.Statement .rdResult := fun _ => .inl rfl

theorem EncodingAccepted.rdStatus : EncodingAccepted.Statement .rdStatus := fun _ => .inl rfl

theorem EncodingAccepted.rdErrInfo : EncodingAccepted.Statement .rdErrInfo := fun _ => .inl rfl

theorem EncodingAccepted.rdCap : EncodingAccepted.Statement .rdCap := fun _ => .inl rfl

theorem EncodingAccepted.rdTable (d : BitVec 8) : EncodingAccepted.Statement (.rdTable d) :=
  fun _ => .inl (by revert d; decide)

theorem EncodingAccepted.busError (t : Transaction) : EncodingAccepted.Statement (.busError t) := fun _ => .inr rfl

end Sys2Proof.Laws
end

