-- ==== Sys2Proof/Tests/Slice0.lean ====
section
/-! SUPPORT. The model's own tests: the well-formedness smoke test, one written-out word per constructor, single
steps with the values of spec/95_test_vectors.md, and for every statement with hypotheses a state and operands that
meet them. -/

namespace Sys2Proof.Tests

-- One theorem after another: side by side, each waiting test holds a thread and its stack.
set_option Elab.async false

open Sys2Proof.Machine

/-! ### Well-formedness: one ill-formed term per check -/

theorem test_wellFormed_refuses_a_command_word_as_illegal : wellFormed (.illegal 0x0000000000000303#64) = false := by
  decide

theorem test_wellFormed_refuses_init_as_illegal : wellFormed (.illegal 0x0000000000000001#64) = false := by decide

theorem test_wellFormed_refuses_an_accepted_read_as_busError :
    wellFormed (.busError (.read 0x058#12 .b8)) = false := by decide

theorem test_wellFormed_refuses_an_accepted_write_as_busError :
    wellFormed (.busError (.write 0x028#12 .b8 1#64)) = false := by decide

theorem test_wellFormed_takes_the_reserved_words :
    wellFormed (.illegal 0#64) = true ∧ wellFormed (.illegal 0x8001#64) = true ∧
      wellFormed (.illegal 0x101#64) = true ∧ wellFormed (.illegal 0x09#64) = true := by decide

/-! ### Decoding: a word per constructor, written out from R102 and 10_state.md section 2 -/

theorem test_decode_init : decodeTableWord 64 0x0000000000000001 = some .init := by decide
theorem test_decode_initCustom : decodeTableWord 64 0x0000000000000002 = some .initCustom := by decide
theorem test_decode_appendOctets : decodeTableWord 64 0x0000000000000803 = some (.appendOctets 8#7) := by decide
theorem test_decode_appendBits : decodeTableWord 64 0x0000000000004004 = some (.appendBits 64#7) := by decide
theorem test_decode_compute : decodeTableWord 64 0x0000000000000405 = some (.compute 4#7) := by decide
theorem test_decode_reflect : decodeTableWord 64 0x0000000000002006 = some (.reflect 32#7) := by decide
theorem test_decode_buildTable : decodeTableWord 64 0x0000000000000007 = some .buildTable := by decide
theorem test_decode_clearError : decodeTableWord 64 0x0000000000000008 = some .clearError := by decide
theorem test_decode_illegal : decodeTableWord 64 0x0000000000000108 = some (.illegal 0x108#64) := by decide
theorem test_decode_wrCfg : decodeTableWord 16 0x1000 = some (.wrCfg 0#64) := by decide
theorem test_decode_wrPoly : decodeTableWord 16 0x1008 = some (.wrPoly 0#64) := by decide
theorem test_decode_wrInit : decodeTableWord 16 0x1010 = some (.wrInit 0#64) := by decide
theorem test_decode_wrXorout : decodeTableWord 16 0x1018 = some (.wrXorout 0#64) := by decide
theorem test_decode_wrData : decodeTableWord 16 0x1020 = some (.wrData 0#64) := by decide
theorem test_decode_wrCmd : decodeTableWord 16 0x1028 = some (.wrCmd 0#64) := by decide
theorem test_decode_rdCfg : decodeTableWord 16 0x0000 = some .rdCfg := by decide
theorem test_decode_rdPoly : decodeTableWord 16 0x0008 = some .rdPoly := by decide
theorem test_decode_rdInit : decodeTableWord 16 0x0010 = some .rdInit := by decide
theorem test_decode_rdXorout : decodeTableWord 16 0x0018 = some .rdXorout := by decide
theorem test_decode_rdData : decodeTableWord 16 0x0020 = some .rdData := by decide
theorem test_decode_rdCmd : decodeTableWord 16 0x0028 = some .rdCmd := by decide
theorem test_decode_rdCheck : decodeTableWord 16 0x0030 = some .rdCheck := by decide
theorem test_decode_rdRemainder : decodeTableWord 16 0x0038 = some .rdRemainder := by decide
theorem test_decode_rdResult : decodeTableWord 16 0x0040 = some .rdResult := by decide
theorem test_decode_rdStatus : decodeTableWord 16 0x0048 = some .rdStatus := by decide
theorem test_decode_rdErrInfo : decodeTableWord 16 0x0050 = some .rdErrInfo := by decide
theorem test_decode_rdCap : decodeTableWord 16 0x0058 = some .rdCap := by decide
theorem test_decode_rdTable : decodeTableWord 16 0x0FF8 = some (.rdTable 255#8) := by decide
theorem test_decode_busError :
    decodeTableWord 16 0x17F8 = some (.busError (.write 0x7F8#12 .b8 0#64)) := by decide

/-- V-BUS-1 to V-BUS-6. -/
theorem test_decode_refused_accesses :
    decode (.bus (.read 0x004#12 .b8)) = .busError (.read 0x004#12 .b8) ∧
    decode (.bus (.read 0x030#12 .b4)) = .busError (.read 0x030#12 .b4) ∧
    decode (.bus (.read 0x060#12 .b8)) = .busError (.read 0x060#12 .b8) ∧
    decode (.bus (.write 0x030#12 .b8 1#64)) = .busError (.write 0x030#12 .b8 1#64) ∧
    decode (.bus (.write 0x800#12 .b8 1#64)) = .busError (.write 0x800#12 .b8 1#64) ∧
    decode (.bus (.write 0x7F8#12 .b8 1#64)) = .busError (.write 0x7F8#12 .b8 1#64) := by decide

/-! ### States the tests and witnesses stand on -/

/-- A configured, unbound block from reset: `crc.config w, p, i, r, x`. -/
def configured (w : BitVec 7) (p i : Word) (r : Bool) (x : Word) : State :=
  { State.reset with cfgWidth := w, cfgReflect := r, poly := p, init := i, xorout := x }

/-- Its bound form, with REMAINDER 0 and a value in DATA. -/
def bound (w : BitVec 7) (p : Word) (r : Bool) (data : Word) : State :=
  { configured w p 0#64 r 0#64 with bound := true, data := data }

/-- (16, 0x8005, 0, 1, 0), bound. -/
def arc : State := bound 16#7 0x8005#64 true 0x31#64

/-- (8, 0x07, 0, 0, 0), bound. -/
def smbus : State := bound 8#7 0x07#64 false 0x3132#64

/-- The same with `WIDE_APPEND_POLICY = refuse`. -/
def smbusRefuse : State := { smbus with params := { hasTable := true, wideAppend := .refuse } }

/-- The reset state with ILLEGAL_COMMAND latched for the word 0x09. -/
def latched : State := { State.reset with err := true, errCode := 1#4, errInfo := 0x9#64 }

/-- The state an outcome gives, or `s`. -/
def after (o : Host.Outcome State Fault Refusal) (s : State) : State :=
  match o with
  | .next t => t
  | .fault _ => s
  | .refused _ => s

/-- A check of the state an outcome gives, which must be a next state. -/
def gives (o : Host.Outcome State Fault Refusal) (check : State → Bool) : Bool :=
  match o with
  | .next t => check t
  | .fault _ => false
  | .refused _ => false

theorem gives_next {o : Host.Outcome State Fault Refusal} {P : State → Prop} [DecidablePred P]
    (h : gives o (fun t => decide (P t)) = true) : ∃ t, o = .next t ∧ P t := by
  cases o with
  | next t => exact ⟨t, rfl, of_decide_eq_true h⟩
  | fault f => simp [gives] at h
  | refused r => simp [gives] at h

theorem gives_some {o : Host.Outcome State Fault Refusal} (h : gives o (fun _ => true) = true) : ∃ t, o = .next t := by
  cases o with
  | next t => exact ⟨t, rfl⟩
  | fault f => simp [gives] at h
  | refused r => simp [gives] at h

/-- `arc` with its table built. -/
def arcTable : State := { arc with table := filledTable arc.divisor, tableValid := true }

/-- A block without a table memory, configured. -/
def noTable : State :=
  { configured 16#7 0x8005#64 0#64 true 0#64 with params := { hasTable := false, wideAppend := .serial } }

/-! ### Single steps, values of spec/95_test_vectors.md -/

/-- V-REF-12. -/
theorem test_reflect_32 :
    (after (exec (.reflect 32#7) { State.reset with data := 0x04C11DB7#64 }) State.reset).result =
      0xEDB88320#64 := by decide +kernel

/-- V-REF-10: bits at and above n are ignored. -/
theorem test_reflect_12 :
    (after (exec (.reflect 12#7) { State.reset with data := 0xABCD#64 }) State.reset).result = 0xB3D#64 := by
  decide +kernel

/-- V-INIT-4. -/
theorem test_init_openpgp :
    (after (exec .init (configured 24#7 0x864CFB#64 0xB704CE#64 false 0#64)) State.reset).remainder =
      0xB704CE#64 := by decide +kernel

/-- V-INIT-6: the seed is reflected. -/
theorem test_initCustom_reflected_seed :
    (after (exec .initCustom { configured 16#7 0x8005#64 0#64 true 0#64 with data := 1#64 }) State.reset).remainder =
      0x8000#64 := by decide +kernel

/-- V-INIT-10: a value too wide. -/
theorem test_initCustom_too_wide :
    (after (exec .initCustom { configured 8#7 0x07#64 0#64 false 0#64 with data := 0x100#64 }) State.reset).statusWord =
      0x304#64 := by decide +kernel

/-- V-OCT-9: two octets, lane 0 first. -/
theorem test_appendOctets_order :
    (after (exec (.appendOctets 2#7) { arc with data := 0x3132#64 }) arc).remainder = 0xB4D4#64 := by decide +kernel

/-- V-OCT-4: a width below 8. -/
theorem test_appendOctets_width_3 :
    (after (exec (.appendOctets 1#7) (bound 3#7 0x3#64 false 0x31#64)) arc).remainder = 0#64 := by decide +kernel

/-- V-OCT-9 by the table path. -/
theorem test_appendOctets_by_table :
    (after (exec (.appendOctets 2#7) { arcTable with data := 0x3132#64 }) arc).remainder = 0xB4D4#64 := by
  decide +kernel

/-- V-BIT-5: a group wider than the register, MSB first. -/
theorem test_appendBits_wide : (after (exec (.appendBits 16#7) smbus) smbus).remainder = 0x72#64 := by
  decide +kernel

/-- V-BIT-9: whole octet and partial octet, LSB first. -/
theorem test_appendBits_partial :
    (after (exec (.appendBits 9#7) (bound 4#7 0x3#64 true 0x1FF#64)) arc).remainder = 0xD#64 := by decide +kernel

/-- V-BIT-19: refused under `refuse`. -/
theorem test_appendBits_refused :
    (after (exec (.appendBits 16#7) smbusRefuse) smbus).statusWord = 0x605#64 ∧
      (after (exec (.appendBits 16#7) smbusRefuse) smbus).errInfo = 0x1004#64 := by decide +kernel

/-- V-CMP-4: "12345678" under CRC-16/ARC's parameters. -/
theorem test_compute_eight_octets :
    (after (exec (.compute 8#7)
      { configured 16#7 0x8005#64 0#64 true 0#64 with data := 0x3837363534333231#64 }) arc).remainder =
      0x3C9D#64 := by decide +kernel

/-- L1-2: the source's 32-bit check value, over "123456789". -/
theorem test_catalog_crc32 :
    ((performStmts (pseudoComputeMsg
        [0x31#8, 0x32#8, 0x33#8, 0x34#8, 0x35#8, 0x36#8, 0x37#8, 0x38#8, 0x39#8])
      (configured 32#7 0x04C11DB7#64 0xFFFFFFFF#64 true 0xFFFFFFFF#64)).map
        fun o => (after o State.reset).response) = some (some (.okayRead 0xCBF43926#64)) := by decide +kernel

/-- V-TAB-1. -/
theorem test_buildTable_entries :
    (after (exec .buildTable (configured 32#7 0x04C11DB7#64 0#64 true 0#64)) arc).tableWindow 0x01#8 =
      0x77073096#64 ∧
    (after (exec .buildTable (configured 32#7 0x04C11DB7#64 0#64 true 0#64)) arc).tableWindow 0x80#8 =
      0xEDB88320#64 := by decide +kernel

/-- V-TAB-12: without the table memory the build does nothing. -/
theorem test_buildTable_absent : (after (exec .buildTable noTable) arc).statusWord = 0#64 := by decide +kernel

/-- V-TAB-3 read through the window. -/
theorem test_rdTable_valid : (after (exec (.rdTable 0x01#8) arcTable) arc).response =
    some (.okayRead 0xC0C1#64) := by decide +kernel

/-- V-ERR-18: only the exact word clears. -/
theorem test_clearError_exact_word :
    (after (exec (.wrCmd 0x108#64) latched) arc).statusWord = 0x104#64 ∧
      (after (exec (.wrCmd 0x8#64) latched) arc).statusWord = 0#64 := by decide +kernel

/-- V-ERR-2. -/
theorem test_illegal_latches :
    (after (exec (.wrCmd 0x9#64) State.reset) arc).statusWord = 0x104#64 ∧
      (after (exec (.wrCmd 0x9#64) State.reset) arc).errInfo = 0x9#64 := by decide +kernel

/-- V-BUS-9: reserved CFG bits read 0, and the write unbinds. -/
theorem test_wrCfg_reserved_bits :
    (after (exec (.wrCfg 0xFFFFFFFFFFFFFFFF#64) arc) arc).cfgWord = 0x17F#64 ∧
      (after (exec (.wrCfg 0xFFFFFFFFFFFFFFFF#64) arc) arc).statusWord = 0#64 := by decide +kernel

/-- V-TAB-10 and V-TAB-11: INIT keeps the table, POLY does not. -/
theorem test_wrInit_keeps_wrPoly_drops_the_table :
    (after (exec (.wrInit 0#64) arcTable) arc).statusWord = 0x2#64 ∧
      (after (exec (.wrPoly 0x8005#64) arcTable) arc).statusWord = 0#64 := by decide +kernel

/-- V-BUS-8. -/
theorem test_rdCap_default : (after (exec .rdCap State.reset) arc).response = some (.okayRead 0x4001#64) := by
  decide +kernel

/-- R190's example: REMAINDER 0x340BC6D9 under XOROUT all ones. -/
theorem test_rdCheck_iso_hdlc :
    (after (exec .rdCheck { State.reset with remainder := 0x340BC6D9#64, xorout := 0xFFFFFFFF#64 }) arc).response =
      some (.okayRead 0xCBF43926#64) := by decide +kernel

/-- V-ERR-14 through the step: COUNT_RANGE wins over CONFIG_INVALID. -/
theorem test_step_runs_a_placed_word :
    (after (step (State.reset.withFetchWord 64 0x905)) arc).statusWord = 0x504#64 := by decide +kernel

/-! ### Witnesses: states and operands that meet the statements' hypotheses -/

theorem arc_inv : Inv arc := by
  constructor <;> decide +kernel

theorem smbus_inv : Inv smbus := by
  constructor <;> decide +kernel

theorem smbusRefuse_inv : Inv smbusRefuse := by
  constructor <;> decide +kernel

theorem latched_inv : Inv latched := by
  constructor <;> decide +kernel

theorem reset_inv : Inv State.reset := by
  constructor <;> decide +kernel

theorem configured_inv : Inv (configured 16#7 0x8005#64 0#64 true 0#64) := by
  constructor <;> decide +kernel

/-- A state whose valid table makes the table path run. -/
theorem arcTable_inv : Inv arcTable where
  bound_valid := by decide +kernel
  bound_fits := by decide +kernel
  latch_code := by decide +kernel
  code_known := by decide +kernel
  code_refused := by decide +kernel
  latch_info := by decide +kernel
  table_present := by decide +kernel
  table_width := by decide +kernel
  table_poly := by decide +kernel
  table_content := fun _ d => filledTable_get arc.divisor d

theorem witness_DecodeOfEncodeIsTheInstruction :
    wellFormed (.appendBits 127#7) = true ∧ wellFormed (.illegal 0#64) = true ∧
      wellFormed (.busError (.read 0x7F8#12 .b8)) = true := by decide

/-- Each case of R104, at a boundary. -/
theorem witness_IllegalWordsAreRejected :
    (0x100#64 : Word).toNat % 256 = 0 ∧ 9 ≤ (0x09#64 : Word).toNat % 256 ∧ 2 ^ 15 ≤ (0x8001#64 : Word).toNat ∧
      ((0x108#64 : Word).toNat / 256 % 128 ≠ 0 ∧ (0x108#64 : Word).toNat % 256 = 8) ∧
      State.reset.err = false ∧ latched.err = true := by decide

theorem witness_IllegalLatchesTheWord : State.reset.err = false ∧ latched.err = true := by decide

/-- Narrow; misaligned; both ends of the reserved range; the first and last read-only offset. -/
theorem witness_RefusedAccessesFault :
    AccessSize.b4 ≠ .b8 ∧ (0x004#12 : Offset).toNat % 8 ≠ 0 ∧
      (0x060 ≤ (0x060#12 : Offset).toNat ∧ (0x060#12 : Offset).toNat ≤ 0x7F8) ∧
      (0x060 ≤ (0x7F8#12 : Offset).toNat ∧ (0x7F8#12 : Offset).toNat ≤ 0x7F8) ∧
      0x030 ≤ (0x030#12 : Offset).toNat ∧ 0x030 ≤ (0xFF8#12 : Offset).toNat := by decide

theorem witness_BusErrorStopsTheStep :
    (State.reset.withNext (.write 0x058#12 .b8 1#64)).pending = [.access (.write 0x058#12 .b8 1#64)] ∧
      acceptedAccess (.write 0x058#12 .b8 1#64) = false := by decide

theorem witness_StatementsAssemble : (127 : Nat) ≤ 127 ∧ (127 : Nat) < 128 := by decide

theorem witness_StepRunsDecodedTransaction :
    (State.reset.withNext (.read 0x030#12 .b8)).pending = .access (.read 0x030#12 .b8) :: [] := by decide

theorem witness_PlacedTableWordRunsNext :
    decodeTableWord 64 0x905 = some (.compute 9#7) ∧ decodeTableWord 16 0x1018 = some (.wrXorout 0#64) := by decide

theorem witness_IdleStepAndResetPulse :
    State.reset.pending = [] ∧ ({ latched with pending := [.reset] } : State).pending = .reset :: [] := by decide

/-- The window's last offset is reached; an address below BASE exists when the window is not page 0, and one above it
always does. -/
theorem witness_WindowRouting : Config.base + 0xFFF < Config.base + 0x1000 := by omega

theorem witness_ResetStateAndFirstCommands :
    State.reset = { State.reset with params := Params.defaults } ∧
      (∃ n : Nat, n ≤ 8 ∧ (0x805#64 : Word) = BitVec.ofNat 64 (5 + 256 * n)) ∧
      (∃ n : Nat, n ≤ 8 ∧ (0x803#64 : Word) = BitVec.ofNat 64 (3 + 256 * n)) ∧
      (∃ n : Nat, n ≤ 64 ∧ (0x4004#64 : Word) = BitVec.ofNat 64 (4 + 256 * n)) ∧
      (64#7 : BitVec 7).toNat ≤ 64 :=
  ⟨rfl, ⟨8, by decide, by decide⟩, ⟨8, by decide, by decide⟩, ⟨64, by decide, by decide⟩, by decide⟩

/-- Invariant and step together: a bound block with a valid table about to append. -/
theorem witness_EveryStepKeepsTheInvariant :
    Inv arcTable ∧ ∃ t, step (arcTable.withNext (.write 0x028#12 .b8 0x103#64)) = .next t :=
  ⟨arcTable_inv, gives_some (by decide +kernel)⟩

theorem witness_TableInvalidationOnlyByCfgPolyReset :
    (∃ t, step (arcTable.withNext (.write 0x008#12 .b8 0#64)) = .next t ∧ arcTable.tableValid = true ∧
      t.tableValid = false) ∧
    (∃ t, exec (.wrCfg 0#64) arcTable = .next t) ∧
    ({ arcTable with pending := [.reset] } : State).pending = .reset :: [] :=
  ⟨⟨_, rfl, rfl, rfl⟩, ⟨_, rfl⟩, rfl⟩

/-- REMAINDER changes, BOUND is set, BOUND is cleared. -/
theorem witness_RemainderAndBoundWriters :
    (∃ t, exec (.appendOctets 1#7) arc = .next t ∧ t.remainder ≠ arc.remainder) ∧
    (∃ t, exec .init (configured 16#7 0x8005#64 0#64 true 0#64) = .next t ∧ t.bound = true) ∧
    (∃ t, exec (.wrXorout 0#64) arc = .next t ∧ arc.bound = true ∧ t.bound = false) :=
  ⟨gives_next (by decide +kernel), gives_next (by decide +kernel), gives_next (by decide +kernel)⟩

/-- A write of each register that changes it. -/
theorem witness_OneWriterPerRegister :
    (∃ t, exec (.reflect 8#7) arc = .next t ∧ t.result ≠ arc.result) ∧
    (∃ t, exec (.illegal 9#64) arc = .next t ∧ t.errInfo ≠ arc.errInfo) ∧
    (∃ t, exec .clearError latched = .next t ∧ t.errInfo ≠ latched.errInfo) ∧
    (∃ t, exec (.wrData 0#64) arc = .next t ∧ t.data ≠ arc.data) ∧
    (∃ t, exec (.wrCfg 1#64) arc = .next t ∧ t.cfgWidth ≠ arc.cfgWidth) ∧
    (∃ t, exec (.wrPoly 1#64) arc = .next t ∧ t.poly ≠ arc.poly) ∧
    (∃ t, exec (.wrInit 1#64) arc = .next t ∧ t.init ≠ arc.init) ∧
    (∃ t, exec (.wrXorout 1#64) arc = .next t ∧ t.xorout ≠ arc.xorout) ∧
    (∃ t, exec .buildTable (configured 16#7 0x8005#64 0#64 true 0#64) = .next t ∧
      t.table ≠ (configured 16#7 0x8005#64 0#64 true 0#64).table) := by
  refine ⟨?_, ?_, ?_, ?_, ?_, ?_, ?_, ?_, ?_⟩
  on_goal 9 =>
    obtain ⟨t, ht, h1⟩ := gives_next (o := exec .buildTable (configured 16#7 0x8005#64 0#64 true 0#64))
      (P := fun t => t.table[1] ≠ 0#64) (by decide +kernel)
    exact ⟨t, ht, fun h => h1 (by rw [h]; rfl)⟩
  all_goals exact gives_next (by decide +kernel)

theorem witness_CapabilityIsConstant : ∃ t, step arc = .next t := ⟨_, rfl⟩

theorem witness_CheckAndRemainderRead : Inv arc ∧ arc.bound = true := ⟨arc_inv, rfl⟩

/-- Both cases of the window read, the second by each of its causes. -/
theorem witness_TableWindowRead :
    (Inv arcTable ∧ arcTable.params.hasTable = true ∧ arcTable.tableValid = true) ∧ arc.tableValid = false ∧
      noTable.params.hasTable = false := ⟨⟨arcTable_inv, rfl, rfl⟩, rfl, rfl⟩

theorem witness_ReadsArePureAndWritesIdempotent :
    (∃ t, exec (decode (.bus (.read 0x048#12 .b8))) arc = .next t) ∧
      (∃ t, exec (decode (.bus (.write 0x000#12 .b8 1#64))) arc = .next t ∧ (0x000#12 : Offset) ≠ 0x028#12) :=
  ⟨⟨_, rfl⟩, ⟨_, rfl, by decide⟩⟩

theorem witness_RejectedCommandOnlyLatches :
    State.reset.err = false ∧ ∃ t, exec (.wrCmd 0x1#64) State.reset = .next t ∧ t.err = true :=
  ⟨rfl, gives_next (by decide +kernel)⟩

theorem witness_LatchedErrorDropsCommands :
    latched.err = true ∧ (0x108#64 : Word) ≠ 0x0000000000000008#64 ∧
      acceptedAccess (.write 0x008#12 .b8 3#64) = true := by decide

/-- The last check and the pass: a group of 9 and of 8 bits under `refuse` at width 8. -/
theorem witness_FirstCheckDecidesTheCode :
    Inv smbusRefuse ∧ smbusRefuse.err = false ∧ (∃ t, exec (.wrCmd 0x904#64) smbusRefuse = .next t) ∧
      (∃ t, exec (.wrCmd 0x804#64) smbusRefuse = .next t) :=
  ⟨smbusRefuse_inv, rfl, gives_some (by decide +kernel), gives_some (by decide +kernel)⟩

/-- A wide group under `serial`, and a group as wide as the register under `refuse`. -/
theorem witness_ValidCommandsNeverFail :
    (smbus.err = false ∧ legalCommandWord 0x4004#64 = true ∧ (0x4004#64 : Word).toNat / 256 % 128 ≤ 64 ∧
      smbus.bound = true ∧ smbus.params.wideAppend = .serial) ∧
    (smbusRefuse.err = false ∧ legalCommandWord 0x804#64 = true ∧ smbusRefuse.bound = true ∧
      (0x804#64 : Word).toNat / 256 % 128 ≤ smbusRefuse.width) := by decide

theorem witness_ClearErrorIsTheReturn :
    (0x108#64 : Word).toNat % 256 = 8 ∧ 8 < (0x108#64 : Word).toNat ∧ latched.err = true ∧
      State.reset.err = false := by decide

theorem witness_ReflectReversesTheLowBits : (64 : Nat) ≤ 64 ∧ (0 : Nat) ≤ 64 := by decide

theorem witness_ReflectCornersAndRoundTrip : (16 : Nat) ≤ 64 ∧ (0x8005#64 : Word).toNat < 2 ^ 16 := by decide

/-- Each clause: latched; N = 65; N = 64; a reserved bit set. -/
theorem witness_ReflectWritesResult :
    latched.err = true ∧ State.reset.err = false ∧ 64 < (65#7 : BitVec 7).toNat ∧ (64#7 : BitVec 7).toNat ≤ 64 ∧
      (0x8006#64 : Word).toNat % 256 = 6 ∧ 2 ^ 15 ≤ (0x8006#64 : Word).toNat := by decide

theorem witness_ConfigValidIsCheckedByFourCommands :
    State.reset.err = false ∧ State.reset.configValid = false ∧ (8#7 : BitVec 7).toNat ≤ 8 ∧
      (∃ t, exec (.appendOctets 9#7) arc = .next t ∧ arc.err = false ∧ t.err = true) :=
  ⟨rfl, by decide +kernel, by decide, gives_next (by decide +kernel)⟩

/-- Each clause: latched, invalid, valid. -/
theorem witness_InitConstructs :
    latched.err = true ∧ (State.reset.err = false ∧ State.reset.configValid = false) ∧
      (configured 16#7 0x8005#64 0#64 true 0#64).err = false ∧
      (configured 16#7 0x8005#64 0#64 true 0#64).configValid = true := by decide +kernel

/-- Each clause; DATA at 2^W and at 2^W − 1. -/
theorem witness_InitCustomConstructsFromData :
    latched.err = true ∧ (State.reset.err = false ∧ State.reset.configValid = false) ∧
      (({ smbus with data := 0x100#64 } : State).configValid = true ∧ smbus.err = false ∧
        2 ^ smbus.width ≤ (0x100#64 : Word).toNat) ∧
      (({ smbus with data := 0xFF#64 } : State).configValid = true ∧
        (0xFF#64 : Word).toNat < 2 ^ smbus.width) := by decide +kernel

/-- The narrowest and the widest register; shared by the statements about cycle, octet step and table function. -/
theorem witness_CycleBitByBit :
    (1 ≤ 1 ∧ 1 ≤ 64 ∧ fits 1#64 1 = true ∧ fits 0#64 1 = true) ∧
      (1 ≤ 64 ∧ 64 ≤ 64 ∧ fits 0x42F0E1EBA9EA3693#64 64 = true ∧ fits 0xFFFFFFFFFFFFFFFF#64 64 = true) := by
  decide +kernel

theorem witness_EngineIsPolynomialDivision :
    1 ≤ 3 ∧ 3 ≤ 64 ∧ fits 0x3#64 3 = true ∧ fits 0x7#64 3 = true := by decide +kernel

theorem witness_BytewiseFormIsTheOctetStep :
    (1 ≤ arc.divisor.width ∧ arc.divisor.width ≤ 64 ∧ fits arc.divisor.poly arc.divisor.width = true ∧
      fits 0xFFFF#64 arc.divisor.width = true) ∧
    (1 ≤ 7 ∧ 7 ≤ 64 ∧ fits 0x09#64 7 = true ∧ fits 0x7F#64 7 = true) := by decide +kernel

theorem witness_EngineStaysBelowTwoToTheWidth :
    1 ≤ arc.divisor.width ∧ arc.divisor.width ≤ 64 ∧ fits arc.divisor.poly arc.divisor.width = true ∧
      (0xFFFF#64 : Word).toNat < 2 ^ arc.divisor.width := by decide +kernel

/-- Each clause: latched; N = 9; unbound with N = 8; bound with N = 8. -/
theorem witness_AppendOctetsFoldsTheLanes :
    latched.err = true ∧ arc.err = false ∧ 8 < (9#7 : BitVec 7).toNat ∧ (8#7 : BitVec 7).toNat ≤ 8 ∧
      (State.reset.err = false ∧ State.reset.bound = false) ∧ arc.bound = true := by decide

theorem witness_OctetChunkInvariance :
    arc.err = false ∧ arc.bound = true ∧ 3 + 5 ≤ 8 ∧
      ∃ t, performAll [writeCmd (BitVec.ofNat 64 (3 + 256 * (3 + 5)))] arc = .next t :=
  ⟨rfl, rfl, by decide, _, rfl⟩

theorem witness_AppendBitsWritesRemainder :
    (smbus.err = false ∧ (64#7 : BitVec 7).toNat ≤ 64 ∧ smbus.bound = true ∧ smbus.params.wideAppend = .serial) ∧
      (smbusRefuse.bound = true ∧ (8#7 : BitVec 7).toNat ≤ smbusRefuse.width) := by decide

/-- Each clause: latched; N = 65; unbound; N = W + 1 under `refuse`; N = W under `refuse`; N = 64 under `serial`. -/
theorem witness_AppendBitsIsOneCyclePerBit :
    (Inv latched ∧ latched.err = true) ∧ (Inv smbus ∧ smbus.err = false ∧ 64 < (65#7 : BitVec 7).toNat) ∧
      (Inv State.reset ∧ State.reset.err = false ∧ State.reset.bound = false) ∧
      (Inv smbusRefuse ∧ smbusRefuse.params.wideAppend = .refuse ∧ smbusRefuse.width < (9#7 : BitVec 7).toNat ∧
        (8#7 : BitVec 7).toNat ≤ smbusRefuse.width ∧ smbusRefuse.bound = true) ∧
      (Inv arcTable ∧ arcTable.bound = true ∧ (64#7 : BitVec 7).toNat ≤ 64 ∧
        arcTable.params.wideAppend = .serial) :=
  ⟨⟨latched_inv, rfl⟩, ⟨smbus_inv, rfl, by decide⟩, ⟨reset_inv, rfl, rfl⟩,
    ⟨smbusRefuse_inv, rfl, by decide, by decide, rfl⟩, ⟨arcTable_inv, rfl, by decide, rfl⟩⟩

theorem witness_GroupDecompositionIsSerial : (64 : Nat) ≤ 64 := by decide

/-- Both orientations, and a split inside an octet. -/
theorem witness_BitChunkInvariance :
    (Inv arcTable ∧ arcTable.err = false ∧ arcTable.bound = true ∧ 5 + 7 ≤ 64 ∧
      arcTable.params.wideAppend = .serial ∧
      (0xB55#64 : Word) = (0x15#64 &&& ones 5) ||| ((0x5A#64 &&& ones 7) <<< 5)) ∧
    (Inv smbus ∧ (0xADA#64 : Word) = ((0x15#64 &&& ones 5) <<< 7) ||| (0x5A#64 &&& ones 7)) :=
  ⟨⟨arcTable_inv, rfl, rfl, by decide, rfl, by decide +kernel⟩, smbus_inv, by decide +kernel⟩

theorem witness_EightBitsAreOneOctet : Inv arcTable ∧ arcTable.err = false ∧ arcTable.bound = true :=
  ⟨arcTable_inv, rfl, rfl⟩

theorem witness_OneBitLeavesThePolynomial : arc.err = false ∧ arc.configValid = true := by decide +kernel

/-- Each clause: latched; N = 9; invalid with N = 8; valid with N = 8. -/
theorem witness_ComputeConstructsAndAppends :
    latched.err = true ∧ arc.err = false ∧ 8 < (9#7 : BitVec 7).toNat ∧ (8#7 : BitVec 7).toNat ≤ 8 ∧
      (State.reset.err = false ∧ State.reset.configValid = false) ∧ arc.configValid = true := by decide +kernel

theorem witness_ZeroLengthCheck : smbus.err = false ∧ smbus.configValid = true := by decide +kernel

/-- An empty chunk, a full one and a message longer than DATA. -/
theorem witness_ComputeMessageAgreesWithAnySplit :
    arc.err = false ∧ arc.configValid = true ∧
      ∀ c ∈ ([[], List.replicate 8 0x31#8, [0x32#8]] : List (List Octet)), c.length ≤ 8 := by decide +kernel

theorem witness_RestoreSetsTheRemainder :
    (arc.err = false ∧ arc.configValid = true ∧ (0xFFFF#64 : Word).toNat < 2 ^ arc.width) ∧
      (smbus.configValid = true ∧ (0xFF#64 : Word).toNat < 2 ^ smbus.width) := by decide +kernel

theorem witness_TableFunctionLaws :
    (1 ≤ arc.divisor.width ∧ arc.divisor.width ≤ 64 ∧ fits arc.divisor.poly arc.divisor.width = true ∧
      arc.divisor.reflected = true ∧ 8 ≤ arc.divisor.width) ∧
    (smbus.divisor.reflected = false ∧ 8 ≤ smbus.divisor.width) := by decide +kernel

/-- Each clause: latched, invalid, valid with and without the table memory. -/
theorem witness_BuildTableFillsEveryEntry :
    latched.err = true ∧ (State.reset.err = false ∧ State.reset.configValid = false) ∧
      (arc.err = false ∧ arc.configValid = true ∧ arc.params.hasTable = true) ∧
      (noTable.err = false ∧ noTable.configValid = true ∧ noTable.params.hasTable = false) := by decide +kernel

theorem witness_PathNeverChangesAResult :
    Inv arcTable ∧ ∃ t, exec (.wrCmd 0x1104#64) arcTable = .next t :=
  ⟨arcTable_inv, gives_some (by decide +kernel)⟩

end Sys2Proof.Tests
end

section
/-! PROOFS. Reserved command words and refused accesses (spec/30_encoding.md R104, R105): first what the decoder makes
of them, then what the block answers. -/

namespace Sys2Proof

/-! ### The fields of a command word as numbers (R100) -/

@[simp] theorem cmdOp_toNat (w : Word) : (cmdOp w).toNat = w.toNat % 256 := by
  simp [cmdOp]

@[simp] theorem cmdN_toNat (w : Word) : (cmdN w).toNat = w.toNat / 256 % 128 := by
  simp [cmdN, Nat.shiftRight_eq_div_pow]

@[simp] theorem cmdRsvd_toNat (w : Word) : (cmdRsvd w).toNat = w.toNat / 2 ^ 15 := by
  have hw : w.toNat < 2 ^ 64 := w.isLt
  rw [cmdRsvd, BitVec.extractLsb'_toNat, Nat.shiftRight_eq_div_pow, Nat.mod_eq_of_lt (by omega)]

theorem legalCommandWord_eq_fields (w : Word) :
    legalCommandWord w = (isCommandOp (cmdOp w) && decide (cmdRsvd w = 0#49) &&
      (takesCount (cmdOp w) || decide (cmdN w = 0#7))) := rfl

/-! ### The reserved command words, one lemma per case of R104 -/

section Reserved

variable {w : Word}

theorem decodeCommand_of_rsvd_ne_zero (h : cmdRsvd w ≠ 0#49) : decodeCommand w = .illegal w := by
  simp [decodeCommand, h]

/-- None of the eight opcodes of R102 is met. -/
theorem decodeCommand_of_reserved_op (h : isCommandOp (cmdOp w) = false) : decodeCommand w = .illegal w := by
  have hop (op : BitVec 8) (hc : isCommandOp op = true) : cmdOp w ≠ op := fun heq => by simp [heq, hc] at h
  simp [decodeCommand, hop 0x01#8 rfl, hop 0x02#8 rfl, hop 0x03#8 rfl, hop 0x04#8 rfl, hop 0x05#8 rfl,
    hop 0x06#8 rfl, hop 0x07#8 rfl, hop 0x08#8 rfl]

/-- The four opcodes that take a count are not met, and N decides. -/
theorem decodeCommand_of_unexpected_count (h : takesCount (cmdOp w) = false) (hn : cmdN w ≠ 0#7) :
    decodeCommand w = .illegal w := by
  have hop (op : BitVec 8) (hc : takesCount op = true) : cmdOp w ≠ op := fun heq => by simp [heq, hc] at h
  simp [decodeCommand, hn, hop 0x03#8 rfl, hop 0x04#8 rfl, hop 0x05#8 rfl, hop 0x06#8 rfl]

/-- Every word that is no legal command decodes to ILLEGAL with the whole word. -/
theorem decodeCommand_of_not_legal (h : legalCommandWord w = false) : decodeCommand w = .illegal w := by
  simp only [legalCommandWord_eq_fields, Bool.and_eq_false_iff, Bool.or_eq_false_iff, decide_eq_false_iff_not] at h
  obtain (hop | hrsvd) | ⟨hcount, hn⟩ := h
  · exact decodeCommand_of_reserved_op hop
  · exact decodeCommand_of_rsvd_ne_zero hrsvd
  · exact decodeCommand_of_unexpected_count hcount hn

end Reserved

/-- The four cases of R104 in numbers. -/
theorem legalCommandWord_eq_false_iff (w : Word) :
    legalCommandWord w = false ↔
      w.toNat % 256 = 0 ∨ 9 ≤ w.toNat % 256 ∨ 2 ^ 15 ≤ w.toNat ∨
        (w.toNat / 256 % 128 ≠ 0 ∧
          (w.toNat % 256 = 1 ∨ w.toNat % 256 = 2 ∨ w.toNat % 256 = 7 ∨ w.toNat % 256 = 8)) := by
  simp only [legalCommandWord_eq_fields, isCommandOp, takesCount, ← BitVec.toNat_inj, cmdOp_toNat, cmdN_toNat,
    cmdRsvd_toNat, BitVec.toNat_ofNat, Bool.and_eq_false_iff, Bool.or_eq_false_iff, decide_eq_false_iff_not]
  omega

/-! ### The refused accesses (20_memory.md R62) -/

theorem alignedFull_iff (o : Offset) (size : AccessSize) :
    alignedFull o size = true ↔ size = .b8 ∧ o.toNat % 8 = 0 := by
  simp [alignedFull, ← BitVec.toNat_inj]

/-- Every register lies below the reserved range, the table window above it. -/
theorem decodeRead_of_reserved {o : Offset} (h : reservedOffset o = true) : decodeRead o = none := by
  have hrange : 0x060 ≤ o.toNat ∧ o.toNat ≤ 0x7F8 := by simpa [reservedOffset] using h
  have hne (r : Offset) (hr : r.toNat < 0x060) : o ≠ r := fun heq => by subst heq; omega
  have hwindow : ¬ 0x800 ≤ o.toNat := by omega
  simp [decodeRead, hne, hwindow]

/-- No writable register lies above 0x028. -/
theorem decodeWrite_of_not_writable {o : Offset} (h : writableOffset o = false) (v : Word) :
    decodeWrite o v = none := by
  have hne (r : Offset) (hr : writableOffset r = true) : o ≠ r := fun heq => by simp [heq, hr] at h
  simp [decodeWrite, hne 0x000#12 rfl, hne 0x008#12 rfl, hne 0x010#12 rfl, hne 0x018#12 rfl, hne 0x020#12 rfl,
    hne 0x028#12 rfl]

/-- R105: what the block does not accept decodes to BUS_ERROR with the whole transaction. -/
theorem decodeTransaction_of_refused {t : Transaction} (h : acceptedAccess t = false) :
    decodeTransaction t = .busError t := by
  cases t with
  | read o size =>
    by_cases ha : alignedFull o size = true
    · have hres : reservedOffset o = true := by
        obtain ⟨hsize, halign⟩ := (alignedFull_iff o size).mp ha
        simpa [acceptedAccess, hsize, halign] using h
      simp [decodeTransaction, ha, decodeRead_of_reserved hres]
    · simp [decodeTransaction, ha]
  | write o size v =>
    by_cases ha : alignedFull o size = true
    · have hro : writableOffset o = false := by
        obtain ⟨hsize, halign⟩ := (alignedFull_iff o size).mp ha
        simpa [acceptedAccess, hsize, halign] using h
      simp [decodeTransaction, ha, decodeWrite_of_not_writable hro]
    · simp [decodeTransaction, ha]

/-- Narrow, misaligned or reserved, in numbers. -/
theorem acceptedAccess_read_eq_false_iff (o : Offset) (size : AccessSize) :
    acceptedAccess (.read o size) = false ↔
      size ≠ .b8 ∨ o.toNat % 8 ≠ 0 ∨ (0x060 ≤ o.toNat ∧ o.toNat ≤ 0x7F8) := by
  simp [acceptedAccess, reservedOffset, imp_iff_not_or, or_assoc]

/-- Narrow, misaligned or above the writable registers, in numbers. -/
theorem acceptedAccess_write_eq_false_iff (o : Offset) (size : AccessSize) (v : Word) :
    acceptedAccess (.write o size v) = false ↔ size ≠ .b8 ∨ o.toNat % 8 ≠ 0 ∨ 0x028 < o.toNat := by
  simp [acceptedAccess, writableOffset, imp_iff_not_or, or_assoc]

namespace Machine

/-! ### What the block answers -/

/-- R223: ILLEGAL latches ILLEGAL_COMMAND and its word. -/
theorem execIllegal_of_clear {s : State} (h : s.err = false) (w : Word) :
    execIllegal w s =
      .next { s with err := true, errCode := 1#4, errInfo := w, response := some .okayWrite } := by
  simp [execIllegal, issue_rejected h, raiseCmdError, CmdError.code]

/-- R246: ILLEGAL is dropped while the latch is set. -/
theorem execIllegal_of_latched {s : State} (h : s.err = true) (w : Word) :
    execIllegal w s = .next { s with response := some .okayWrite } :=
  issue_dropped h

/-- R216: the write of a word that is no legal command performs ILLEGAL. -/
theorem exec_wrCmd_of_not_legal {w : Word} (h : legalCommandWord w = false) (s : State) :
    exec (.wrCmd w) s = execIllegal w s := by
  simp [exec, execWrCmd, decodeCommand_of_not_legal h]

/-- R63, R250: a refused access stops the step with the bus error of its own offset. -/
theorem exec_decode_of_refused {t : Transaction} (h : acceptedAccess t = false) (s : State) :
    exec (decode (.bus t)) s = .fault (.busError (accessOffset t)) := by
  simp [decode, decodeTransaction_of_refused h, exec, execBusError]

/-- Settles O5: R104's four cases are the words that are no legal command, which decode to ILLEGAL. -/
theorem illegalWordsAreRejected : Obligations.IllegalWordsAreRejected := by
  intro w s hw
  rw [exec_wrCmd_of_not_legal ((legalCommandWord_eq_false_iff w).mpr hw)]
  exact ⟨fun h => execIllegal_of_clear h w, fun h => execIllegal_of_latched h w⟩

/-- Settles O7: each case is one of the accesses R62 refuses, and CMD is a register that reads 0. -/
theorem refusedAccessesFault : Obligations.RefusedAccessesFault := by
  intro o size v s
  refine ⟨fun h => ⟨?read, ?write⟩, fun h => ?readOnly, rfl⟩
  case read => exact exec_decode_of_refused ((acceptedAccess_read_eq_false_iff o size).mpr h) s
  case write =>
    have hw : size ≠ .b8 ∨ o.toNat % 8 ≠ 0 ∨ 0x028 < o.toNat := h.imp_right (.imp_right (by omega))
    exact exec_decode_of_refused ((acceptedAccess_write_eq_false_iff o size v).mpr hw) s
  case readOnly =>
    have hw : size ≠ .b8 ∨ o.toNat % 8 ≠ 0 ∨ 0x028 < o.toNat := .inr (.inr (by omega))
    exact exec_decode_of_refused ((acceptedAccess_write_eq_false_iff o size v).mpr hw) s

end Machine
end Sys2Proof
end

section
/-! PROOFS. Bit reflection (spec/40_reflect.md R130 to R133): first which bits the loop of R130 sets, then the laws of
the function, then the command. -/

namespace Sys2Proof.Machine

/-! ### The loop of R130 -/

/-- Turn j adds the one bit at `w − 1 − j`, when bit j of v is set. -/
theorem getLsbD_reflectTurn {w : Nat} (hw : w ≤ 64) (v r : Word) {j : Nat} (hj : j < w) (i : Nat) :
    (reflectTurn v w r j).getLsbD i = (r.getLsbD i || (decide (i = w - 1 - j) && v.getLsbD j)) := by
  unfold reflectTurn
  split
  case isFalse hv => simp [hv]
  case isTrue hv =>
    have hpos : (1#64 <<< (w - 1 - j)).getLsbD i = decide (i = w - 1 - j) := by
      have hj64 : w - 1 - j < 64 := by omega
      simp [← BitVec.twoPow_eq, BitVec.getLsbD_twoPow, hj64, eq_comm]
    simp [hv, hpos]

/-- The loop after its first k turns: the bits that come from v's bits below k are in place, all else is 0. -/
theorem getLsbD_reflectTurns {w : Nat} (hw : w ≤ 64) (v : Word) (i : Nat) {k : Nat} (hk : k ≤ w) :
    ((List.range k).foldl (reflectTurn v w) 0#64).getLsbD i =
      (decide (i < w ∧ w - 1 - i < k) && v.getLsbD (w - 1 - i)) := by
  induction k with
  | zero => simp
  | succ k ih =>
    rw [List.range_succ, List.foldl_append, List.foldl_cons, List.foldl_nil, getLsbD_reflectTurn hw v _ hk,
      ih (by omega)]
    by_cases hi : i = w - 1 - k
    · have hk' : w - 1 - i = k := by omega
      have hiw : i < w := by omega
      simp [hi.symm, hk', hiw]
    · have hiff : (i < w ∧ w - 1 - i < k + 1) ↔ (i < w ∧ w - 1 - i < k) := by omega
      simp only [hi, hiff, decide_false, Bool.false_and, Bool.or_false]

/-- R130, bit by bit. -/
theorem getLsbD_reflect {w : Nat} (hw : w ≤ 64) (v : Word) (i : Nat) :
    (reflect v w).getLsbD i = (decide (i < w) && v.getLsbD (w - 1 - i)) := by
  have hiff : (i < w ∧ w - 1 - i < w) ↔ i < w := by omega
  rw [reflect, getLsbD_reflectTurns hw v i (Nat.le_refl w), decide_eq_decide.mpr hiff]

/-- Settles O35: it is the loop's invariant at the end of the loop. -/
theorem reflectReversesTheLowBits : Obligations.ReflectReversesTheLowBits :=
  fun v _ i hw => getLsbD_reflect hw v i

/-! ### Words below 2^w (00_scope.md R10, 41_params_init.md R140) -/

theorem fits_iff_toNat_lt (v : Word) (w : Nat) : fits v w = true ↔ v.toNat < 2 ^ w := by
  rw [fits_iff_getLsbD]
  constructor
  · exact fun h => Nat.lt_pow_two_of_testBit _ h
  · exact fun h i hi => Nat.testBit_lt_two_pow (h.trans_le (Nat.pow_le_pow_right (by decide) hi))

/-- Masking a word that fits the width changes nothing. -/
theorem and_ones_of_fits {v : Word} {w : Nat} (h : fits v w = true) : v &&& ones w = v := by
  apply BitVec.eq_of_getLsbD_eq
  intro i hi
  by_cases hw : i < w
  · simp [hw, hi]
  · simp [(fits_iff_getLsbD v w).mp h i (by omega)]

/-! ### The laws of R132 and R133 -/

@[simp] theorem reflect_zero (v : Word) : reflect v 0 = 0#64 := rfl

/-- One turn, which keeps bit 0 in its place. -/
theorem reflect_one (v : Word) : reflect v 1 = v &&& 1#64 := by
  apply BitVec.eq_of_getLsbD_eq
  intro i _
  rw [getLsbD_reflect (by decide), BitVec.getLsbD_and, BitVec.getLsbD_one]
  cases i <;> simp

section Width

variable {w : Nat} (hw : w ≤ 64) (v : Word)
include hw

theorem fits_reflect : fits (reflect v w) w = true := by
  rw [fits_iff_getLsbD]
  intro i hi
  simp [getLsbD_reflect hw, Nat.not_lt.mpr hi]

/-- Bits from w on play no part. -/
theorem reflect_and_ones : reflect (v &&& ones w) w = reflect v w := by
  apply BitVec.eq_of_getLsbD_eq
  intro i _
  rw [getLsbD_reflect hw, getLsbD_reflect hw, BitVec.getLsbD_and, getLsbD_ones]
  by_cases hi : i < w
  · have hmask : w - 1 - i < 64 ∧ w - 1 - i < w := by omega
    simp [hmask]
  · simp [hi]

/-- R133: position i goes to `w − 1 − i` and back. -/
theorem reflect_reflect : reflect (reflect v w) w = v &&& ones w := by
  apply BitVec.eq_of_getLsbD_eq
  intro i h64
  rw [getLsbD_reflect hw, getLsbD_reflect hw, BitVec.getLsbD_and, getLsbD_ones]
  by_cases hi : i < w
  · have hback : w - 1 - (w - 1 - i) = i := by omega
    have hpos : w - 1 - i < w := by omega
    simp [hi, h64, hback, hpos]
  · simp [hi]

theorem reflect_reflect_of_fits (hv : fits v w = true) : reflect (reflect v w) w = v := by
  rw [reflect_reflect hw, and_ones_of_fits hv]

end Width

/-- Settles O36: each law follows from the bits of the reflected word. -/
theorem reflectCornersAndRoundTrip : Obligations.ReflectCornersAndRoundTrip :=
  fun v => ⟨reflect_zero v, reflect_one v, fun w hw =>
    ⟨(fits_iff_toNat_lt _ w).mp (fits_reflect hw v), (reflect_and_ones hw v).symm, reflect_reflect hw v,
      fun hv => reflect_reflect_of_fits hw v ((fits_iff_toNat_lt v w).mpr hv)⟩⟩

/-! ### The command REFLECT (R131) -/

/-- The word of a command as a number (30_encoding.md R107). -/
theorem cmdWord_eq_ofNat (op : BitVec 8) (n : BitVec 7) :
    cmdWord op n = BitVec.ofNat 64 (op.toNat + 256 * n.toNat) := by
  have hop : op.toNat < 2 ^ 8 := op.isLt
  have hn : n.toNat < 2 ^ 7 := n.isLt
  have hor : op.toNat ||| n.toNat <<< 8 = op.toNat + 256 * n.toNat := by
    rw [Nat.or_comm, ← Nat.shiftLeft_add_eq_or_of_lt hop, Nat.shiftLeft_eq]
    omega
  have hsmall : n.toNat <<< 8 < 2 ^ 64 := by
    rw [Nat.shiftLeft_eq]
    omega
  apply BitVec.eq_of_toNat_eq
  rw [cmdWord, BitVec.toNat_or, BitVec.toNat_shiftLeft, BitVec.toNat_setWidth, BitVec.toNat_setWidth,
    Nat.mod_eq_of_lt (by omega : op.toNat < 2 ^ 64), Nat.mod_eq_of_lt (by omega : n.toNat < 2 ^ 64),
    Nat.mod_eq_of_lt hsmall, hor, BitVec.toNat_ofNat, Nat.mod_eq_of_lt (by omega)]

section Command

variable {s : State} {n : BitVec 7}

theorem execReflect_of_latched (h : s.err = true) :
    execReflect n s = .next { s with response := some .okayWrite } :=
  issue_dropped h

theorem execReflect_of_count_too_large (h : s.err = false) (hn : 64 < n.toNat) :
    execReflect n s = .next { s with err := true, errCode := 5#4, errInfo := BitVec.ofNat 64 (6 + 256 * n.toNat),
                                     response := some .okayWrite } := by
  have hcheck : firstError [(decide (64 < n.toNat), .countRange)] = some .countRange := by simp [hn]
  rw [execReflect, issue_rejected h hcheck, cmdWord_eq_ofNat]
  rfl

theorem execReflect_of_count_le (h : s.err = false) (hn : n.toNat ≤ 64) :
    execReflect n s = .next { s with result := reflect s.data n.toNat, response := some .okayWrite } := by
  have hcheck : firstError [(decide (64 < n.toNat), .countRange)] = none := by simp [Nat.not_lt.mpr hn]
  rw [execReflect, issue_performed h hcheck]

end Command

/-- Settles O37: the two outcomes of REFLECT's one check; a reserved bit makes the word ILLEGAL. -/
theorem reflectWritesResult : Obligations.ReflectWritesResult := by
  intro n s
  refine ⟨execReflect_of_latched, execReflect_of_count_too_large, execReflect_of_count_le, fun w _ hrsvd h => ?_⟩
  rw [exec_wrCmd_of_not_legal ((legalCommandWord_eq_false_iff w).mpr (.inr (.inr (.inl hrsvd))))]
  exact execIllegal_of_clear h w

end Sys2Proof.Machine
end

section
/-! PROOFS. The validity of a parameter set and the commands that check it (spec/41_params_init.md R140): first the
check as numbers, then what a command leaves in the error latch, then the four commands and the two appends. -/

namespace Sys2Proof.Machine

/-- R140 in numbers. -/
theorem configValid_iff (s : State) :
    s.configValid = true ↔
      1 ≤ s.width ∧ s.width ≤ 64 ∧ s.poly.toNat < 2 ^ s.width ∧ s.init.toNat < 2 ^ s.width ∧
        s.xorout.toNat < 2 ^ s.width := by
  simp only [State.configValid, Bool.and_eq_true, decide_eq_true_eq, fits_iff_toNat_lt, and_assoc]
  rfl

/-- Code 2 is CONFIG_INVALID's alone (60_exceptions.md R240). -/
theorem code_eq_two_iff (e : CmdError) : e.code = 2#4 ↔ e = .configInvalid := by
  cases e <;> decide

/-! ### What an issued command leaves in the latch (R245) -/

section Issue

variable {word : Word} {checks : List (Bool × CmdError)} {effect : State → State} {s t : State}

theorem issue_configInvalid (h : s.err = false) (he : firstError checks = some .configInvalid) :
    issue word checks effect s =
      .next { s with err := true, errCode := 2#4, errInfo := word, response := some .okayWrite } :=
  issue_rejected h he

/-- A latch that a command sets holds the code of a check of its own that held. -/
theorem errCode_of_issue_latched (h : issue word checks effect s = .next t) (hs : s.err = false)
    (heffect : (effect s).err = false) (ht : t.err = true) : ∃ e, (true, e) ∈ checks ∧ t.errCode = e.code := by
  obtain ⟨hlatched, -⟩ | ⟨e, -, he, rfl⟩ | ⟨-, -, rfl⟩ := issue_cases h
  case inl => simp [hs] at hlatched
  case inr.inl => exact ⟨e, firstError_mem he, rfl⟩
  case inr.inr => simp [heffect] at ht

/-- A command without the check of ConfigValid never latches code 2. -/
theorem errCode_ne_two_of_issue_latched (h : issue word checks effect s = .next t) (hs : s.err = false)
    (heffect : (effect s).err = false) (ht : t.err = true) (hchecks : ∀ c ∈ checks, c.2 ≠ .configInvalid) :
    t.errCode ≠ 2#4 := by
  obtain ⟨e, hmem, hcode⟩ := errCode_of_issue_latched h hs heffect ht
  rw [hcode, ne_eq, code_eq_two_iff]
  exact hchecks _ hmem

end Issue

/-! ### The four commands with an invalid parameter set -/

section Invalid

variable {s : State} (h : s.err = false) (hc : s.configValid = false)
include h hc

theorem execInit_of_configInvalid :
    execInit s = .next { s with err := true, errCode := 2#4, errInfo := cmdWord 0x01#8 0#7,
                                response := some .okayWrite } :=
  issue_configInvalid h (by simp [hc])

/-- The width of DATA is not looked at. -/
theorem execInitCustom_of_configInvalid :
    execInitCustom s = .next { s with err := true, errCode := 2#4, errInfo := cmdWord 0x02#8 0#7,
                                      response := some .okayWrite } :=
  issue_configInvalid h (by simp [hc])

/-- With or without the table memory. -/
theorem execBuildTable_of_configInvalid :
    execBuildTable s = .next { s with err := true, errCode := 2#4, errInfo := cmdWord 0x07#8 0#7,
                                      response := some .okayWrite } :=
  issue_configInvalid h (by simp [hc])

/-- COMPUTE looks at its count first, so an N above 8 would be COUNT_RANGE. -/
theorem execCompute_of_configInvalid {n : BitVec 7} (hn : n.toNat ≤ 8) :
    execCompute n s = .next { s with err := true, errCode := 2#4, errInfo := cmdWord 0x05#8 n,
                                     response := some .okayWrite } :=
  issue_configInvalid h (by simp [hc, Nat.not_lt.mpr hn])

end Invalid

/-! ### The appends -/

section Append

variable {s t : State} {n : BitVec 7}

theorem execAppendOctets_errCode_ne_two (h : execAppendOctets n s = .next t) (hs : s.err = false)
    (ht : t.err = true) : t.errCode ≠ 2#4 :=
  errCode_ne_two_of_issue_latched h hs hs ht (by simp)

theorem execAppendBits_errCode_ne_two (h : execAppendBits n s = .next t) (hs : s.err = false)
    (ht : t.err = true) : t.errCode ≠ 2#4 :=
  errCode_ne_two_of_issue_latched h hs hs ht (by simp)

end Append

/-- Settles O38: the check as numbers, its outcome in each of the four commands, and its absence from the appends. -/
theorem configValidIsCheckedByFourCommands : Obligations.ConfigValidIsCheckedByFourCommands := by
  refine fun s => ⟨configValid_iff s, fun h hc i hi => ?checked, fun n t h happend ht => ?append⟩
  case checked =>
    obtain rfl | rfl | rfl | ⟨n, hn, rfl⟩ := hi
    · exact ⟨_, rfl, execInit_of_configInvalid h hc⟩
    · exact ⟨_, rfl, execInitCustom_of_configInvalid h hc⟩
    · exact ⟨_, rfl, execBuildTable_of_configInvalid h hc⟩
    · exact ⟨_, rfl, execCompute_of_configInvalid h hc hn⟩
  case append =>
    obtain hoctets | hbits := happend
    · exact execAppendOctets_errCode_ne_two hoctets h ht
    · exact execAppendBits_errCode_ne_two hbits h ht

end Sys2Proof.Machine
end

section
/-! PROOFS. The division cycle and the octet step (spec/42_append_octets.md R160 to R162, R167): first the three parts
of a cycle and its bits, then linearity over GF(2), then the per-byte form. -/

namespace Sys2Proof.Machine

/-! ### The parts of a cycle (R160) -/

/-- The coefficient of x^(W−1), which the next cycle retires. -/
def retiring (D : Divisor) (r : Word) : Bool := if D.reflected then r.getLsbD 0 else r.getLsbD (D.width - 1)

/-- k shifts toward higher powers, within the register. -/
def shiftUp (D : Divisor) (r : Word) (k : Nat) : Word :=
  if D.reflected then r >>> k else (r <<< k) &&& ones D.width

/-- POLY in the register's orientation. -/
def orientedPoly (D : Divisor) : Word := if D.reflected then reflect D.poly D.width else D.poly

/-- R160 without its cases: shift once, and add the polynomial when the retiring coefficient differs from the message
bit. -/
theorem cycle_eq (D : Divisor) (r : Word) (b : Bool) :
    cycle D r b = shiftUp D r 1 ^^^ (if retiring D r ^^ b then orientedPoly D else 0#64) := by
  unfold cycle shiftUp retiring orientedPoly
  cases D.reflected
  case false =>
    simp only [Bool.false_eq_true, if_false]
    split <;> simp
  case true =>
    simp only [if_true]
    split <;> simp

/-- A message bit that equals the retiring coefficient cancels it, and the cycle only shifts. -/
theorem cycle_retiring (D : Divisor) (r : Word) : cycle D r (retiring D r) = shiftUp D r 1 := by
  simp [cycle_eq]

theorem getLsbD_cycle (D : Divisor) (r : Word) (b : Bool) (i : Nat) :
    (cycle D r b).getLsbD i =
      ((shiftUp D r 1).getLsbD i ^^ ((retiring D r ^^ b) && (orientedPoly D).getLsbD i)) := by
  rw [cycle_eq, BitVec.getLsbD_xor]
  cases retiring D r ^^ b <;> simp

/-! ### Shifts, bit by bit -/

theorem getLsbD_shiftUp (D : Divisor) (r : Word) (k i : Nat) :
    (shiftUp D r k).getLsbD i =
      if D.reflected then r.getLsbD (k + i)
      else decide (i < 64) && decide (i < D.width) && decide (k ≤ i) && r.getLsbD (i - k) := by
  unfold shiftUp
  cases D.reflected
  case false =>
    by_cases hk : k ≤ i
    · simp [hk, Bool.and_comm, Bool.and_left_comm]
    · simp [hk]
  case true => simp

theorem shiftUp_shiftUp_one (D : Divisor) (r : Word) (k : Nat) :
    shiftUp D (shiftUp D r k) 1 = shiftUp D r (k + 1) := by
  apply BitVec.eq_of_getLsbD_eq
  intro i h64
  simp only [getLsbD_shiftUp]
  cases D.reflected
  case false =>
    cases i with
    | zero => simp
    | succ i =>
      by_cases hi : i + 1 < D.width
      · have hbelow : i < 64 ∧ i < D.width := by omega
        simp [h64, hi, hbelow]
      · simp [hi]
  case true => simp [Nat.add_assoc]

section Fits

variable {D : Divisor} {r : Word} (hr : fits r D.width = true)
include hr

@[simp] theorem shiftUp_zero : shiftUp D r 0 = r := by
  simp [shiftUp, and_ones_of_fits hr]

/-- `ls` of R162 is the remainder after eight shifts; a register narrower than an octet is then empty. -/
theorem lsBytes_eq_shiftUp : lsBytes D r = shiftUp D r 8 := by
  by_cases hW : D.width < 8
  · apply BitVec.eq_of_getLsbD_eq
    intro i _
    have hhigh : r.getLsbD (8 + i) = false := (fits_iff_getLsbD r _).mp hr _ (by omega)
    by_cases hi : i < D.width
    · have hlow : ¬ 8 ≤ i := by omega
      simp [lsBytes, hW, getLsbD_shiftUp, hhigh, hlow]
    · simp [lsBytes, hW, getLsbD_shiftUp, hhigh, hi]
  · simp [lsBytes, shiftUp, hW]

end Fits

/-! ### The cycle, bit by bit -/

/-- Settles O41: `getLsbD_cycle` with the orientation's shift, retiring bit and polynomial put in. -/
theorem cycleBitByBit : Obligations.CycleBitByBit := by
  intro W P r b i _ hW hP hr
  have hPi : W ≤ i → P.getLsbD i = false := (fits_iff_getLsbD P W).mp hP i
  have hri : W ≤ i → r.getLsbD (1 + i) = false := fun hi => (fits_iff_getLsbD r W).mp hr (1 + i) (by omega)
  rw [getLsbD_cycle, getLsbD_cycle, getLsbD_shiftUp, getLsbD_shiftUp]
  by_cases hi : i < W
  · have h64 : i < 64 := by omega
    simp [retiring, orientedPoly, getLsbD_reflect hW, hi, h64, Nat.add_comm, -BitVec.getLsbD_eq_getElem]
  · simp [retiring, orientedPoly, getLsbD_reflect hW, hi, hPi (by omega), hri (by omega)]

/-! ### Linearity over GF(2) (R167) -/

theorem retiring_xor (D : Divisor) (r1 r2 : Word) :
    retiring D (r1 ^^^ r2) = (retiring D r1 ^^ retiring D r2) := by
  unfold retiring
  split <;> exact BitVec.getLsbD_xor

theorem shiftUp_xor (D : Divisor) (r1 r2 : Word) (k : Nat) :
    shiftUp D (r1 ^^^ r2) k = shiftUp D r1 k ^^^ shiftUp D r2 k := by
  unfold shiftUp
  split
  · exact BitVec.ushiftRight_xor_distrib r1 r2 k
  · apply BitVec.eq_of_getLsbD_eq
    intro i _
    simp only [BitVec.shiftLeft_xor_distrib, BitVec.getLsbD_and, BitVec.getLsbD_xor, Bool.and_xor_distrib_right]

theorem octetBit_xor (reflected : Bool) (o1 o2 : Octet) (k : Nat) :
    octetBit reflected (o1 ^^^ o2) k = (octetBit reflected o1 k ^^ octetBit reflected o2 k) := by
  unfold octetBit
  split <;> exact BitVec.getLsbD_xor

theorem cycle_xor (D : Divisor) (r1 r2 : Word) (b1 b2 : Bool) :
    cycle D (r1 ^^^ r2) (b1 ^^ b2) = cycle D r1 b1 ^^^ cycle D r2 b2 := by
  apply BitVec.eq_of_getLsbD_eq
  intro i _
  simp only [BitVec.getLsbD_xor, getLsbD_cycle, retiring_xor, shiftUp_xor]
  cases (orientedPoly D).getLsbD i
  · simp only [Bool.and_false, Bool.xor_false]
  · simp only [Bool.and_true, Bool.xor_assoc, Bool.xor_left_comm, Bool.xor_comm]

/-- Over any sequence of positions, and message bits given by position: R161's loop and R180's are both of this form. -/
theorem foldl_cycle_xor (D : Divisor) (bits1 bits2 : Nat → Bool) (ks : List Nat) (r1 r2 : Word) :
    ks.foldl (fun r k => cycle D r (bits1 k ^^ bits2 k)) (r1 ^^^ r2) =
      ks.foldl (fun r k => cycle D r (bits1 k)) r1 ^^^ ks.foldl (fun r k => cycle D r (bits2 k)) r2 := by
  induction ks generalizing r1 r2 with
  | nil => rfl
  | cons k ks ih => rw [List.foldl_cons, cycle_xor, ih, List.foldl_cons, List.foldl_cons]

theorem octetStep_xor (D : Divisor) (r1 r2 : Word) (o1 o2 : Octet) :
    octetStep D (r1 ^^^ r2) (o1 ^^^ o2) = octetStep D r1 o1 ^^^ octetStep D r2 o2 := by
  simp only [octetStep, octetBit_xor, foldl_cycle_xor]

/-- Settles O45: linearity of one cycle, carried through the octet's eight. -/
theorem engineIsLinear : Obligations.EngineIsLinear :=
  fun D => ⟨cycle_xor D, octetStep_xor D, fun r o => by rw [← octetStep_xor, BitVec.xor_zero, BitVec.zero_xor]⟩

/-! ### The per-byte form (R162) -/

/-- Message bits that cancel every coefficient that retires: n cycles are n shifts. -/
theorem foldl_cycle_retiring {D : Divisor} {r : Word} (hr : fits r D.width = true) {bits : Nat → Bool} {n : Nat}
    (hbits : ∀ k < n, bits k = retiring D (shiftUp D r k)) :
    (List.range n).foldl (fun r k => cycle D r (bits k)) r = shiftUp D r n := by
  induction n with
  | zero => exact (shiftUp_zero hr).symm
  | succ n ih =>
    rw [List.range_succ, List.foldl_append, ih fun k hk => hbits k (by omega), List.foldl_cons, List.foldl_nil,
      hbits n (by omega), cycle_retiring, shiftUp_shiftUp_one]

section Octet

variable {D : Divisor} {r : Word} (hW : 1 ≤ D.width) (hW64 : D.width ≤ 64)
include hW hW64

/-- `ms` of R162 holds the eight coefficients that retire, in stream order. -/
theorem octetBit_msByte {k : Nat} (hk : k < 8) :
    octetBit D.reflected (msByte D r) k = retiring D (shiftUp D r k) := by
  unfold octetBit msByte retiring
  rw [getLsbD_shiftUp, getLsbD_shiftUp]
  cases D.reflected
  case true => simp [hk]
  case false =>
    have hk7 : 7 - k < 8 := by omega
    have htop : D.width - 1 < 64 ∧ D.width - 1 < D.width := by omega
    by_cases h8 : 8 ≤ D.width
    · have hpos : D.width - 8 + (7 - k) = D.width - 1 - k := by omega
      have hkW : k ≤ D.width - 1 := by omega
      simp [h8, hpos, hk7, htop, hkW]
    · have hpos : 7 - k - (8 - D.width) = D.width - 1 - k := by omega
      have hk64 : 7 - k < 64 := by omega
      have hiff : 7 - k < 8 - D.width ↔ D.width - 1 < k := by omega
      simp [h8, hpos, hk7, hk64, htop, hiff, ← decide_not, -BitVec.getLsbD_eq_getElem]

/-- The rest of the remainder passes through the octet step unchanged but for its place. -/
theorem octetStep_msByte (hr : fits r D.width = true) : octetStep D r (msByte D r) = lsBytes D r := by
  rw [lsBytes_eq_shiftUp hr]
  exact foldl_cycle_retiring hr fun k hk => octetBit_msByte hW hW64 hk

end Octet

/-- Settles O43: by linearity the octet step on o is the table's on `ms ^ o` plus the octet step that `ms` cancels. -/
theorem bytewiseFormIsTheOctetStep : Obligations.BytewiseFormIsTheOctetStep := by
  intro D r o hW hW64 _ hr
  calc octetStepBytewise D (tableRemainder D) r o
      = octetStep D 0#64 (msByte D r ^^^ o) ^^^ octetStep D r (msByte D r) := by
        rw [octetStep_msByte hW hW64 hr, octetStepBytewise, tableRemainder]
    _ = octetStep D (0#64 ^^^ r) (msByte D r ^^^ o ^^^ msByte D r) := (octetStep_xor ..).symm
    _ = octetStep D r o := by
        rw [BitVec.zero_xor, BitVec.xor_comm (msByte D r), BitVec.xor_assoc, BitVec.xor_self, BitVec.xor_zero]

end Sys2Proof.Machine
end

section
/-! PROOFS. Bit groups as streams of message bits (spec/43_append_bits.md R180 to R183): every loop of the engine is one
fold of the division cycle over a list of bits, so its laws are equations between lists of bits. -/

namespace Sys2Proof.Machine

/-! ### The streams -/

/-- The bits of an octet in stream order (R161). -/
def octetStream (reflected : Bool) (o : Octet) : List Bool := (List.range 8).map (octetBit reflected o)

/-- m bits of the stream of the group `DATA[n-1:0]`, from position i of that stream on (R180). -/
def groupRun (reflected : Bool) (data : Word) (n i m : Nat) : List Bool :=
  (List.range m).map fun k => groupBit reflected data n (i + k)

/-- The whole octets of the group, in stream order (R182). -/
def groupOctets (reflected : Bool) (data : Word) (n : Nat) : List Octet :=
  (List.range (n / 8)).map (groupOctet reflected data n)

theorem octetStep_eq_foldl (D : Divisor) (r : Word) (o : Octet) :
    octetStep D r o = (octetStream D.reflected o).foldl (cycle D) r := by
  rw [octetStep, octetStream, List.foldl_map]

theorem bitLoop_eq_foldl (D : Divisor) (data : Word) (n : Nat) (r : Word) :
    bitLoop D data n r = (groupRun D.reflected data n 0 n).foldl (cycle D) r := by
  simp only [bitLoop, groupRun, List.foldl_map, Nat.zero_add]

/-- R182's form over any octet step: its octets, and then the cycles of the last `n mod 8` bits of the stream. -/
theorem groupLoop_eq_foldl (f : Word → Octet → Word) (D : Divisor) (data : Word) (n : Nat) (r : Word) :
    groupLoop f D data n r =
      (groupRun D.reflected data n (8 * (n / 8)) (n % 8)).foldl (cycle D)
        ((groupOctets D.reflected data n).foldl f r) := by
  simp only [groupLoop, groupRun, groupOctets, List.foldl_map]

theorem foldl_octetStep (D : Divisor) (os : List Octet) (r : Word) :
    os.foldl (octetStep D) r = (os.flatMap (octetStream D.reflected)).foldl (cycle D) r := by
  simp only [List.foldl_flatMap, ← octetStep_eq_foldl]

/-! ### The stream of a group is its octets and a rest (R182) -/

section Group

variable (reflected : Bool) (data : Word) (n : Nat)

theorem groupRun_add (i a b : Nat) :
    groupRun reflected data n i (a + b) =
      groupRun reflected data n i a ++ groupRun reflected data n (i + a) b := by
  simp only [groupRun, List.range_add, List.map_append, List.map_map, Function.comp_def, Nat.add_assoc]

/-- An octet's own order is the order its bits have in the group. -/
theorem octetBit_groupOctet {j k : Nat} (hj : 8 * j + 8 ≤ n) (hk : k < 8) :
    octetBit reflected (groupOctet reflected data n j) k = groupBit reflected data n (8 * j + k) := by
  unfold octetBit groupOctet groupBit
  cases reflected
  case true => simp [hk]
  case false =>
    have hk7 : 7 - k < 8 := by omega
    have hpos : n - 8 - 8 * j + (7 - k) = n - 1 - (8 * j + k) := by omega
    simp [hk7, hpos]

theorem octetStream_groupOctet {j : Nat} (hj : 8 * j + 8 ≤ n) :
    octetStream reflected (groupOctet reflected data n j) = groupRun reflected data n (8 * j) 8 :=
  List.map_congr_left fun _ hk => octetBit_groupOctet reflected data n hj (List.mem_range.mp hk)

/-- The octets in order are the stream's consecutive runs of eight bits. -/
theorem flatMap_octetStream_groupOctet {q : Nat} (hq : 8 * q ≤ n) :
    ((List.range q).map (groupOctet reflected data n)).flatMap (octetStream reflected) =
      groupRun reflected data n 0 (8 * q) := by
  induction q with
  | zero => rfl
  | succ q ih =>
    rw [List.range_succ, List.map_append, List.flatMap_append, ih (by omega), List.map_singleton,
      List.flatMap_singleton, octetStream_groupOctet reflected data n hq, Nat.mul_succ, groupRun_add, Nat.zero_add]

theorem groupRun_eq_octets_append_rest :
    groupRun reflected data n 0 n =
      (groupOctets reflected data n).flatMap (octetStream reflected) ++
        groupRun reflected data n (8 * (n / 8)) (n % 8) := by
  calc groupRun reflected data n 0 n
      = groupRun reflected data n 0 (8 * (n / 8) + n % 8) := by rw [Nat.div_add_mod]
    _ = _ := by
        rw [groupRun_add, groupOctets, flatMap_octetStream_groupOctet reflected data n (Nat.mul_div_le n 8),
          Nat.zero_add]

end Group

/-- R182: the octets and the rest are the group's stream, cut in two. -/
theorem groupLoop_octetStep (D : Divisor) (data : Word) (n : Nat) (r : Word) :
    groupLoop (octetStep D) D data n r = bitLoop D data n r := by
  rw [groupLoop_eq_foldl, foldl_octetStep, ← List.foldl_append, ← groupRun_eq_octets_append_rest, bitLoop_eq_foldl]

/-- Settles O50: the two forms fold the cycle over the same stream of bits, whatever n is. -/
theorem groupDecompositionIsSerial : Obligations.GroupDecompositionIsSerial :=
  fun D data r n _ => groupLoop_octetStep D data n r

/-! ### The stream of a concatenation (R183) -/

/-- The group with the n1 bits of v1 first in the stream, and then the n2 bits of v2. -/
def groupConcat (reflected : Bool) (v1 v2 : Word) (n1 n2 : Nat) : Word :=
  if reflected then (v1 &&& ones n1) ||| ((v2 &&& ones n2) <<< n1)
  else ((v1 &&& ones n1) <<< n2) ||| (v2 &&& ones n2)

section Concat

variable (reflected : Bool) (v1 v2 : Word) {n1 n2 : Nat} (h : n1 + n2 ≤ 64)
include h

theorem groupBit_groupConcat_first {k : Nat} (hk : k < n1) :
    groupBit reflected (groupConcat reflected v1 v2 n1 n2) (n1 + n2) k = groupBit reflected v1 n1 k := by
  unfold groupBit groupConcat
  cases reflected
  case true =>
    have hk64 : k < 64 := by omega
    simp [hk, hk64, -BitVec.getLsbD_eq_getElem]
  case false =>
    have h1 : ¬ n1 + n2 - 1 - k < n2 := by omega
    have h2 : n1 + n2 - 1 - k - n2 = n1 - 1 - k := by omega
    have h3 : n1 + n2 - 1 - k < 64 ∧ n1 - 1 - k < 64 ∧ n1 - 1 - k < n1 := by omega
    simp [h1, h2, h3, -BitVec.getLsbD_eq_getElem]

theorem groupBit_groupConcat_second {k : Nat} (hk : k < n2) :
    groupBit reflected (groupConcat reflected v1 v2 n1 n2) (n1 + n2) (n1 + k) = groupBit reflected v2 n2 k := by
  unfold groupBit groupConcat
  cases reflected
  case true =>
    have hk64 : n1 + k < 64 ∧ k < 64 := by omega
    simp [hk, hk64, -BitVec.getLsbD_eq_getElem]
  case false =>
    have h1 : n1 + n2 - 1 - (n1 + k) = n2 - 1 - k := by omega
    have h2 : n2 - 1 - k < n2 ∧ n2 - 1 - k < 64 := by omega
    simp [h1, h2, -BitVec.getLsbD_eq_getElem]

theorem groupRun_groupConcat :
    groupRun reflected (groupConcat reflected v1 v2 n1 n2) (n1 + n2) 0 (n1 + n2) =
      groupRun reflected v1 n1 0 n1 ++ groupRun reflected v2 n2 0 n2 := by
  rw [groupRun_add]
  congr 1
  · exact List.map_congr_left fun k hk => by
      simpa using groupBit_groupConcat_first reflected v1 v2 h (List.mem_range.mp hk)
  · exact List.map_congr_left fun k hk => by
      simpa using groupBit_groupConcat_second reflected v1 v2 h (List.mem_range.mp hk)

end Concat

/-- R183 of the loop: a fold over two lists, one after the other. -/
theorem bitLoop_groupConcat (D : Divisor) (v1 v2 r : Word) {n1 n2 : Nat} (h : n1 + n2 ≤ 64) :
    bitLoop D (groupConcat D.reflected v1 v2 n1 n2) (n1 + n2) r = bitLoop D v2 n2 (bitLoop D v1 n1 r) := by
  simp only [bitLoop_eq_foldl, groupRun_groupConcat _ v1 v2 h, List.foldl_append]

end Sys2Proof.Machine
end

section
/-! PROOFS. APPEND_BITS (spec/43_append_bits.md R180 to R183): first the two paths of the octet step while the
invariant holds (45_table.md R204, R205), then the command's outcomes, then two appends in a row. -/

namespace Sys2Proof.Machine

/-! ### Engine values stay below 2^W (R166) -/

section Fits

variable {D : Divisor} {r : Word}

theorem fits_orientedPoly (hW64 : D.width ≤ 64) (hP : fits D.poly D.width = true) :
    fits (orientedPoly D) D.width = true := by
  unfold orientedPoly
  cases D.reflected
  case false => exact hP
  case true => exact fits_reflect hW64 D.poly

theorem fits_shiftUp (hr : fits r D.width = true) (k : Nat) : fits (shiftUp D r k) D.width = true := by
  rw [fits_iff_getLsbD] at hr ⊢
  intro i hi
  rw [getLsbD_shiftUp, hr (k + i) (by omega)]
  simp [Nat.not_lt.mpr hi]

variable (hW64 : D.width ≤ 64) (hP : fits D.poly D.width = true) (hr : fits r D.width = true)
include hW64 hP hr

theorem fits_cycle (b : Bool) : fits (cycle D r b) D.width = true := by
  rw [fits_iff_getLsbD]
  intro i hi
  have hshift := (fits_iff_getLsbD _ _).mp (fits_shiftUp hr 1) i hi
  have hpoly := (fits_iff_getLsbD _ _).mp (fits_orientedPoly hW64 hP) i hi
  simp [getLsbD_cycle, hshift, hpoly]

theorem fits_foldl_cycle (bits : List Bool) : fits (bits.foldl (cycle D) r) D.width = true := by
  induction bits generalizing r with
  | nil => exact hr
  | cons b bits ih => exact ih (fits_cycle hW64 hP hr b)

theorem fits_octetStep (o : Octet) : fits (octetStep D r o) D.width = true := by
  rw [octetStep_eq_foldl]
  exact fits_foldl_cycle hW64 hP hr _

theorem fits_bitLoop (data : Word) (n : Nat) : fits (bitLoop D data n r) D.width = true := by
  rw [bitLoop_eq_foldl]
  exact fits_foldl_cycle hW64 hP hr _

end Fits

/-! ### The two paths of R204 -/

/-- What the engine asks of a divisor is part of R140. -/
theorem divisor_of_configValid {s : State} (hc : s.configValid = true) :
    1 ≤ s.divisor.width ∧ s.divisor.width ≤ 64 ∧ fits s.divisor.poly s.divisor.width = true := by
  obtain ⟨hW, hW64, hP, -, -⟩ := (configValid_iff s).mp hc
  exact ⟨hW, hW64, (fits_iff_toNat_lt _ _).mpr hP⟩

section Path

variable {s : State} (hs : Inv s) (hc : s.configValid = true) {r : Word} (hr : fits r s.width = true)
include hs hc hr

/-- R205: a valid table is filled with T, and then the per-byte form is the octet step. -/
theorem stepOctet_eq_octetStep (o : Octet) : s.stepOctet r o = octetStep s.divisor r o := by
  obtain ⟨hW, hW64, hP⟩ := divisor_of_configValid hc
  cases hpath : s.tablePath with
  | false => exact stepOctet_inline hpath r o
  | true =>
    obtain ⟨-, hvalid⟩ := (tablePath_iff s).mp hpath
    have htable : (fun d : Octet => s.table[d.toNat]'d.isLt) = tableRemainder s.divisor :=
      funext (hs.table_content hvalid)
    rw [stepOctet_table hpath, htable]
    exact bytewiseFormIsTheOctetStep s.divisor r o hW hW64 hP hr

theorem foldl_stepOctet (os : List Octet) : os.foldl s.stepOctet r = os.foldl (octetStep s.divisor) r := by
  obtain ⟨-, hW64, hP⟩ := divisor_of_configValid hc
  induction os generalizing r with
  | nil => rfl
  | cons o os ih =>
    rw [List.foldl_cons, List.foldl_cons, stepOctet_eq_octetStep hs hc hr]
    exact ih (fits_octetStep hW64 hP hr o)

/-- The group of APPEND_BITS by whichever path is R180's loop. -/
theorem groupLoop_stepOctet (data : Word) (n : Nat) :
    groupLoop s.stepOctet s.divisor data n r = bitLoop s.divisor data n r := by
  rw [groupLoop_eq_foldl, foldl_stepOctet hs hc hr, ← groupLoop_eq_foldl, groupLoop_octetStep]

end Path

/-! ### The command APPEND_BITS (R180) -/

section Command

variable {s : State} {n : BitVec 7}

theorem execAppendBits_of_latched (h : s.err = true) :
    execAppendBits n s = .next { s with response := some .okayWrite } :=
  issue_dropped h

theorem execAppendBits_of_count_too_large (h : s.err = false) (hn : 64 < n.toNat) :
    execAppendBits n s =
      .next { s with err := true, errCode := 5#4, errInfo := BitVec.ofNat 64 (4 + 256 * n.toNat),
                     response := some .okayWrite } := by
  rw [execAppendBits, issue_rejected h (e := .countRange) (by simp [hn]), cmdWord_eq_ofNat]
  rfl

variable (h : s.err = false) (hn : n.toNat ≤ 64)
include h hn

theorem execAppendBits_of_not_bound (hb : s.bound = false) :
    execAppendBits n s =
      .next { s with err := true, errCode := 4#4, errInfo := BitVec.ofNat 64 (4 + 256 * n.toNat),
                     response := some .okayWrite } := by
  rw [execAppendBits, issue_rejected h (e := .notBound) (by simp [Nat.not_lt.mpr hn, hb]), cmdWord_eq_ofNat]
  rfl

theorem execAppendBits_of_wide_refused (hb : s.bound = true) (hp : s.params.wideAppend = .refuse)
    (hw : s.width < n.toNat) :
    execAppendBits n s =
      .next { s with err := true, errCode := 6#4, errInfo := BitVec.ofNat 64 (4 + 256 * n.toNat),
                     response := some .okayWrite } := by
  rw [execAppendBits, issue_rejected h (e := .wideAppendRefused) (by simp [Nat.not_lt.mpr hn, hb, hp, hw]),
    cmdWord_eq_ofNat]
  rfl

/-- R180, R181: one cycle per bit of the group. -/
theorem execAppendBits_of_admitted (hs : Inv s) (hb : s.bound = true)
    (hp : s.params.wideAppend = .serial ∨ n.toNat ≤ s.width) :
    execAppendBits n s =
      .next { s with remainder := bitLoop s.divisor s.data n.toNat s.remainder, response := some .okayWrite } := by
  have hwide : (decide (s.params.wideAppend = .refuse) && decide (s.width < n.toNat)) = false := by
    obtain hp | hp := hp
    · simp [hp]
    · simp [Nat.not_lt.mpr hp]
  rw [execAppendBits, issue_performed h (by simp [Nat.not_lt.mpr hn, hb, hwide]),
    groupLoop_stepOctet hs (hs.bound_valid hb) (hs.bound_fits hb)]

end Command

/-- Settles O49: the command's five outcomes; in the last the path plays no part, by `groupLoop_stepOctet`. -/
theorem appendBitsIsOneCyclePerBit : Obligations.AppendBitsIsOneCyclePerBit :=
  fun _ _ hs => ⟨execAppendBits_of_latched, execAppendBits_of_count_too_large, execAppendBits_of_not_bound,
    execAppendBits_of_wide_refused, fun h hn hb hp => execAppendBits_of_admitted h hn hs hb hp⟩

/-! ### The write of CMD that brings it (R107, R216) -/

section Word

variable (op : BitVec 8) (n : BitVec 7)

theorem cmdWord_toNat : (cmdWord op n).toNat = op.toNat + 256 * n.toNat := by
  rw [cmdWord_eq_ofNat, BitVec.toNat_ofNat, Nat.mod_eq_of_lt (by omega)]

@[simp] theorem cmdOp_cmdWord : cmdOp (cmdWord op n) = op := by
  apply BitVec.eq_of_toNat_eq
  rw [cmdOp_toNat, cmdWord_toNat]
  omega

@[simp] theorem cmdN_cmdWord : cmdN (cmdWord op n) = n := by
  apply BitVec.eq_of_toNat_eq
  rw [cmdN_toNat, cmdWord_toNat]
  omega

@[simp] theorem cmdRsvd_cmdWord : cmdRsvd (cmdWord op n) = 0#49 := by
  apply BitVec.eq_of_toNat_eq
  rw [cmdRsvd_toNat, cmdWord_toNat, BitVec.toNat_ofNat]
  omega

end Word

theorem exec_writeCmd (w : Word) (s : State) : exec (decode (.bus (writeCmd w))) s = execWrCmd w s := rfl

theorem execWrCmd_appendBits (n : BitVec 7) (s : State) : execWrCmd (cmdWord 0x04#8 n) s = execAppendBits n s := by
  simp [execWrCmd, decodeCommand]

/-! ### Writing DATA and appending from it -/

/-- The state after `v` was written to DATA (46_access_control.md R215). -/
def State.afterData (s : State) (v : Word) : State := { s with data := v, response := some .okayWrite }

theorem exec_writeData (v : Word) (s : State) :
    exec (decode (.bus (.write 0x020#12 .b8 v))) s = .next (s.afterData v) := rfl

/-- The state after `n` bits of `v` were written to DATA and appended. -/
def State.afterBits (s : State) (v : Word) (n : Nat) : State :=
  { s with data := v, remainder := bitLoop s.divisor v n s.remainder, response := some .okayWrite }

/-- DATA and the answer are in no clause of the invariant. -/
theorem inv_afterData {s : State} (hs : Inv s) (v : Word) : Inv (s.afterData v) := { hs with }

/-- An append of bits keeps the invariant: it keeps REMAINDER below 2^W. -/
theorem inv_afterBits {s : State} (hs : Inv s) (v : Word) (n : Nat) : Inv (s.afterBits v n) where
  __ := hs
  bound_fits hb := by
    obtain ⟨-, hW64, hP⟩ := divisor_of_configValid (hs.bound_valid hb)
    exact fits_bitLoop hW64 hP (hs.bound_fits hb) v n

/-- `crc.bits v, n` (R108), in range, bound and not refused. -/
theorem performAll_bits {s : State} {n : Nat} (hs : Inv s) (h : s.err = false) (hb : s.bound = true) (hn : n ≤ 64)
    (hp : s.params.wideAppend = .serial ∨ n ≤ s.width) (v : Word) (rest : List Transaction) :
    performAll (.write 0x020#12 .b8 v :: writeCmd (BitVec.ofNat 64 (4 + 256 * n)) :: rest) s =
      performAll rest (s.afterBits v n) := by
  have hcount : (BitVec.ofNat 7 n).toNat = n := by
    rw [BitVec.toNat_ofNat, Nat.mod_eq_of_lt (by omega)]
  have hword : BitVec.ofNat 64 (4 + 256 * n) = cmdWord 0x04#8 (BitVec.ofNat 7 n) := by
    rw [cmdWord_eq_ofNat, hcount]
    rfl
  have happend : execAppendBits (BitVec.ofNat 7 n) (s.afterData v) = .next (s.afterBits v n) := by
    rw [execAppendBits_of_admitted (s := s.afterData v) h (by rwa [hcount]) (inv_afterData hs v) hb (by rwa [hcount]),
      hcount]
    rfl
  rw [performAll_cons_next (exec_writeData v s)]
  apply performAll_cons_next
  rw [hword, exec_writeCmd, execWrCmd_appendBits, happend]

/-- Settles O51: under the invariant each append is a fold over its stream, and the concatenation's stream is the one
after the other. -/
theorem bitChunkInvariance : Obligations.BitChunkInvariance := by
  intro s v1 v2 c n1 n2 hs h hb hn hp hc
  have hc : c = groupConcat s.divisor.reflected v1 v2 n1 n2 := hc
  refine ⟨(s.afterBits v1 n1).afterBits v2 n2, s.afterBits c (n1 + n2), ?two, ?one, ?same, h, h⟩
  case two =>
    rw [performAll_bits hs h hb (by omega) (hp.imp_right le_of_add_le_left),
      performAll_bits (inv_afterBits hs v1 n1) h hb (by omega) (hp.imp_right le_of_add_le_right), performAll_nil]
  case one => rw [performAll_bits hs h hb hn hp, performAll_nil]
  case same =>
    subst hc
    exact (bitLoop_groupConcat s.divisor v1 v2 s.remainder hn).symm

end Sys2Proof.Machine
end

section
/-! PROOFS. The check value and messages of octets (spec/44_check_compute.md R190 to R194): first the octets packed
into DATA as its lanes, then the commands that construct and append, then the host's statements: whatever the split of
a message, a run folds the octet step over its octets. -/

namespace Sys2Proof.Machine

/-! ### The lanes of packed octets (R61, R108) -/

theorem lane_packOctets_zero (o : Octet) (os : List Octet) : lane (packOctets (o :: os)) 0 = o := by
  apply BitVec.eq_of_getLsbD_eq
  intro i hi
  have hi64 : i < 64 := by omega
  simp [lane, packOctets, hi, hi64, -BitVec.getLsbD_eq_getElem]

theorem lane_packOctets_succ (o : Octet) (os : List Octet) {i : Nat} (hi : i + 1 < 8) :
    lane (packOctets (o :: os)) (i + 1) = lane (packOctets os) i := by
  apply BitVec.eq_of_getLsbD_eq
  intro k hk
  have hpos : 8 * (i + 1) + k < 64 ∧ 8 ≤ 8 * (i + 1) + k ∧ 8 * (i + 1) + k - 8 = 8 * i + k := by omega
  simp [lane, packOctets, hk, hpos, -BitVec.getLsbD_eq_getElem]

/-- At most eight octets fit in DATA, and its lanes are they, in order. -/
theorem map_lane_packOctets {os : List Octet} (h : os.length ≤ 8) :
    (List.range os.length).map (lane (packOctets os)) = os := by
  induction os with
  | nil => rfl
  | cons o os ih =>
    rw [List.length_cons] at h
    rw [List.length_cons, List.range_succ_eq_map, List.map_cons, List.map_map, lane_packOctets_zero]
    congr 1
    calc (List.range os.length).map (lane (packOctets (o :: os)) ∘ Nat.succ)
        = (List.range os.length).map (lane (packOctets os)) :=
          List.map_congr_left fun i hi => lane_packOctets_succ o os (by have := List.mem_range.mp hi; omega)
      _ = os := ih (by omega)

/-- The eight-octet loop over packed octets is a fold over the octets. -/
theorem octetLoop_packOctets (f : Word → Octet → Word) {os : List Octet} (h : os.length ≤ 8) (r : Word) :
    octetLoop f (packOctets os) os.length r = os.foldl f r := by
  conv_rhs => rw [← map_lane_packOctets h, List.foldl_map]
  rfl

/-! ### The commands INIT, APPEND_OCTETS and COMPUTE, performed (R142, R163, R192) -/

/-- The state after INIT. -/
def State.afterInit (s : State) : State := { s.bind (s.seed s.init) with response := some .okayWrite }

section Command

variable {s : State} (h : s.err = false)
include h

theorem execInit_of_configValid (hc : s.configValid = true) : execInit s = .next s.afterInit := by
  rw [execInit, issue_performed h (by simp [hc]), State.afterInit]

theorem execAppendOctets_of_bound {n : BitVec 7} (hn : n.toNat ≤ 8) (hb : s.bound = true) :
    execAppendOctets n s =
      .next { s with remainder := octetLoop s.stepOctet s.data n.toNat s.remainder,
                     response := some .okayWrite } := by
  rw [execAppendOctets, issue_performed h (by simp [Nat.not_lt.mpr hn, hb])]

theorem execCompute_of_configValid {n : BitVec 7} (hn : n.toNat ≤ 8) (hc : s.configValid = true) :
    execCompute n s =
      .next { s.bind (octetLoop s.stepOctet s.data n.toNat (s.seed s.init)) with
                response := some .okayWrite } := by
  rw [execCompute, issue_performed h (by simp [Nat.not_lt.mpr hn, hc])]

end Command

/-! ### The writes of CMD that bring them (R107, R216) -/

theorem execWrCmd_init (s : State) : execWrCmd 0x1#64 s = execInit s := rfl

theorem execWrCmd_appendOctets (n : BitVec 7) (s : State) :
    execWrCmd (cmdWord 0x03#8 n) s = execAppendOctets n s := by
  simp [execWrCmd, decodeCommand]

theorem execWrCmd_compute (n : BitVec 7) (s : State) : execWrCmd (cmdWord 0x05#8 n) s = execCompute n s := by
  simp [execWrCmd, decodeCommand]

/-! ### Reads of CHECK (R190) -/

/-- The state after a read of CHECK. -/
def State.afterCheck (s : State) : State := { s with response := some (.okayRead (s.remainder ^^^ s.xorout)) }

theorem exec_readCheck (s : State) : exec (decode (.bus (.read 0x030#12 .b8))) s = .next s.afterCheck := rfl

/-- Settles O27: the reads are R190 and R191 as they stand; below 2^W under the invariant, as REMAINDER and XOROUT
are. -/
theorem checkAndRemainderRead : Obligations.CheckAndRemainderRead := by
  refine fun s => ⟨rfl, rfl, by rw [BitVec.xor_assoc, BitVec.xor_self, BitVec.xor_zero], fun hs hb => ?_⟩
  obtain ⟨-, -, -, -, hxorout⟩ := (configValid_iff s).mp (hs.bound_valid hb)
  have hremainder := (fits_iff_toNat_lt _ _).mp (hs.bound_fits hb)
  refine ⟨?_, hremainder⟩
  rw [BitVec.toNat_xor]
  exact Nat.xor_lt_two_pow hremainder hxorout

/-- Settles O55: COMPUTE of no octets appends nothing, so both commands leave REMAINDER at the seed. -/
theorem zeroLengthCheck : Obligations.ZeroLengthCheck := by
  intro s w h hc hw
  have hseed : execWrCmd w s = .next s.afterInit := by
    obtain rfl | rfl := hw
    · exact (execWrCmd_compute 0#7 s).trans (execCompute_of_configValid h (by decide) hc)
    · exact execInit_of_configValid h hc
  refine ⟨s.afterInit.afterCheck, ?_, rfl⟩
  rw [performAll_cons_next ((exec_writeCmd w s).trans hseed), performAll_cons_next (exec_readCheck _), performAll_nil]

/-! ### What the host's statements leave (R107, R108) -/

/-- The state after `os` were packed into DATA and appended. -/
def State.afterOctets (s : State) (os : List Octet) : State :=
  { s.afterData (packOctets os) with remainder := os.foldl s.stepOctet s.remainder }

/-- Whatever the split of a message, the engine folds the octet step over the message. -/
theorem remainder_foldl_afterOctets (chunks : List (List Octet)) (s : State) :
    (chunks.foldl State.afterOctets s).remainder = chunks.flatten.foldl s.stepOctet s.remainder := by
  induction chunks generalizing s with
  | nil => rfl
  | cons c chunks ih =>
    rw [List.foldl_cons, ih, List.flatten_cons, List.foldl_append]
    rfl

/-- What one append keeps, any number of them keeps. -/
theorem foldl_afterOctets_of_keeps {α : Type} (field : State → α)
    (hkeeps : ∀ s os, field (s.afterOctets os) = field s) (chunks : List (List Octet)) (s : State) :
    field (chunks.foldl State.afterOctets s) = field s := by
  induction chunks generalizing s with
  | nil => rfl
  | cons c chunks ih => exact (ih (s.afterOctets c)).trans (hkeeps s c)

theorem xorout_foldl_afterOctets (chunks : List (List Octet)) (s : State) :
    (chunks.foldl State.afterOctets s).xorout = s.xorout :=
  foldl_afterOctets_of_keeps State.xorout (fun _ _ => rfl) chunks s

theorem err_foldl_afterOctets (chunks : List (List Octet)) (s : State) :
    (chunks.foldl State.afterOctets s).err = s.err :=
  foldl_afterOctets_of_keeps State.err (fun _ _ => rfl) chunks s

/-- A statement that is assembled and answered leaves the rest to be performed. -/
theorem performStmts_cons_next {st : Stmt} {t : Transaction} {s s' : State} (ht : assemble st = some t)
    (h : exec (decode (.bus t)) s = .next s') (rest : List Stmt) :
    performStmts (st :: rest) s = performStmts rest s' := by
  rw [performStmts, performStmts, assembleAll, ht]
  cases assembleAll rest with
  | none => rfl
  | some ts => exact congrArg some (performAll_cons_next h ts)

theorem toNat_ofNat_of_le_eight {n : Nat} (hn : n ≤ 8) : (BitVec.ofNat 7 n).toNat = n := by
  rw [BitVec.toNat_ofNat, Nat.mod_eq_of_lt (by omega)]

/-- A counted command over at most eight octets packed into DATA, performed by the block as its command word. -/
theorem performStmts_packed {op : BitVec 8} {st : Stmt} {os : List Octet} {s s' : State} (hos : os.length ≤ 8)
    (hst : assemble st = countedCmd op os.length)
    (hexec : execWrCmd (cmdWord op (BitVec.ofNat 7 os.length)) (s.afterData (packOctets os)) = .next s')
    (rest : List Stmt) : performStmts (.wr .data (packOctets os) :: st :: rest) s = performStmts rest s' := by
  have hword : assemble st = some (writeCmd (cmdWord op (BitVec.ofNat 7 os.length))) := by
    rw [hst, countedCmd, if_pos (by omega)]
  rw [performStmts_cons_next rfl (exec_writeData _ s)]
  exact performStmts_cons_next hword ((exec_writeCmd ..).trans hexec) rest

section Statements

variable {s : State} (h : s.err = false)
include h

theorem performStmts_init (hc : s.configValid = true) (rest : List Stmt) :
    performStmts (.init :: rest) s = performStmts rest s.afterInit :=
  have hexec : execWrCmd 0x1#64 s = .next s.afterInit := (execWrCmd_init s).trans (execInit_of_configValid h hc)
  performStmts_cons_next rfl ((exec_writeCmd ..).trans hexec) rest

/-- One chunk of `crc.octets`. -/
theorem performStmts_appendChunk (hb : s.bound = true) {os : List Octet} (hos : os.length ≤ 8) (rest : List Stmt) :
    performStmts (appendChunk os ++ rest) s = performStmts rest (s.afterOctets os) := by
  have hcount := toNat_ofNat_of_le_eight hos
  refine performStmts_packed hos rfl ?_ rest
  rw [execWrCmd_appendOctets, execAppendOctets_of_bound (s := s.afterData _) h (by rwa [hcount]) hb, hcount,
    State.afterOctets, ← octetLoop_packOctets _ hos]
  rfl

/-- R192: COMPUTE of packed octets is INIT and then their append. -/
theorem performStmts_compute (hc : s.configValid = true) {os : List Octet} (hos : os.length ≤ 8) (rest : List Stmt) :
    performStmts (.wr .data (packOctets os) :: .compute os.length :: rest) s =
      performStmts rest (s.afterInit.afterOctets os) := by
  have hcount := toNat_ofNat_of_le_eight hos
  refine performStmts_packed hos rfl ?_ rest
  rw [execWrCmd_compute, execCompute_of_configValid (s := s.afterData _) h (by rwa [hcount]) hc, hcount,
    State.afterOctets, ← octetLoop_packOctets _ hos]
  rfl

end Statements

/-- Consecutive chunks, each appended to what those before it left. -/
theorem performStmts_appendChunks {chunks : List (List Octet)} {s : State} (h : s.err = false) (hb : s.bound = true)
    (hchunks : ∀ c ∈ chunks, c.length ≤ 8) (rest : List Stmt) :
    performStmts (chunks.flatMap appendChunk ++ rest) s = performStmts rest (chunks.foldl State.afterOctets s) := by
  induction chunks generalizing s with
  | nil => rfl
  | cons c chunks ih =>
    obtain ⟨hc, hchunks⟩ := List.forall_mem_cons.mp hchunks
    rw [List.flatMap_cons, List.append_assoc, performStmts_appendChunk h hb hc]
    exact ih (s := s.afterOctets c) h hb hchunks

/-- INIT, the appends of any split into chunks of at most eight, and a read of CHECK. -/
theorem performStmts_split {s : State} (h : s.err = false) (hc : s.configValid = true) {chunks : List (List Octet)}
    (hchunks : ∀ c ∈ chunks, c.length ≤ 8) :
    performStmts ([.init] ++ chunks.flatMap appendChunk ++ [.rd .check]) s =
      some (.next (chunks.foldl State.afterOctets s.afterInit).afterCheck) := by
  rw [List.append_assoc, List.singleton_append, performStmts_init h hc,
    performStmts_appendChunks (s := s.afterInit) h rfl hchunks]
  rfl

/-! ### Messages of any length -/

/-- The first q chunks of `crc.octets`, eight octets each but for the message's end. -/
def eights (os : List Octet) (q : Nat) : List (List Octet) :=
  (List.range q).map fun k => (os.drop (8 * k)).take 8

theorem pseudoOctets_eq_eights (os : List Octet) :
    pseudoOctets os = (eights os ((os.length + 7) / 8)).flatMap appendChunk :=
  (List.flatMap_map ..).symm

theorem length_le_eight_of_mem_eights {os c : List Octet} {q : Nat} (hc : c ∈ eights os q) : c.length ≤ 8 := by
  obtain ⟨k, -, rfl⟩ := List.mem_map.mp hc
  exact List.length_take_le ..

theorem flatten_eights (os : List Octet) (q : Nat) : (eights os q).flatten = os.take (8 * q) := by
  induction q with
  | zero => rfl
  | succ q ih =>
    have hlast : eights os (q + 1) = eights os q ++ [(os.drop (8 * q)).take 8] := by
      simp [eights, List.range_succ]
    rw [hlast, List.flatten_append, ih, List.flatten_singleton, Nat.mul_succ, List.take_add]

/-- `crc.compute.msg` is itself a split of the message: one chunk by COMPUTE, or the chunks of `crc.octets`. -/
theorem performStmts_computeMsg {s : State} (h : s.err = false) (hc : s.configValid = true) (os : List Octet) :
    ∃ chunks : List (List Octet), chunks.flatten = os ∧
      performStmts (pseudoComputeMsg os) s =
        some (.next (chunks.foldl State.afterOctets s.afterInit).afterCheck) := by
  unfold pseudoComputeMsg
  split
  next hshort => exact ⟨[os], List.flatten_singleton, performStmts_compute h hc hshort _⟩
  next =>
    refine ⟨eights os ((os.length + 7) / 8), ?all, ?run⟩
    case all => rw [flatten_eights, List.take_of_length_le (by omega)]
    case run =>
      rw [pseudoOctets_eq_eights]
      exact performStmts_split h hc fun _ => length_le_eight_of_mem_eights

/-- Settles O56: both runs are INIT and the appends of some split of the message, so both fold the octet step over the
message's octets. -/
theorem computeMessageAgreesWithAnySplit : Obligations.ComputeMessageAgreesWithAnySplit := by
  intro s chunks h hc hchunks
  obtain ⟨own, hown, hmsg⟩ := performStmts_computeMsg h hc chunks.flatten
  have hremainder : (own.foldl State.afterOctets s.afterInit).remainder =
      (chunks.foldl State.afterOctets s.afterInit).remainder := by
    rw [remainder_foldl_afterOctets, remainder_foldl_afterOctets, hown]
  refine ⟨_, _, hmsg, performStmts_split h hc hchunks, ?response, hremainder,
    (err_foldl_afterOctets ..).trans h, (err_foldl_afterOctets ..).trans h⟩
  case response =>
    simp only [State.afterCheck, hremainder, xorout_foldl_afterOctets]

end Sys2Proof.Machine
end

section
/-! PROOFS. The path of R204 never changes a result (spec/45_table.md R205): a command performed from a state and from
the same state with its table invalidated leaves the same registers, TABLE_VALID apart. First the appends by either
path, then the issue of a command, then the commands. -/

namespace Sys2Proof.Machine

/-! ### The same octets by either path -/

/-- No clause of the invariant asks for a valid table. -/
theorem inv_invalidateTable {s : State} (hs : Inv s) : Inv s.invalidateTable where
  __ := hs
  table_present := nofun
  table_width := nofun
  table_poly := nofun
  table_content := nofun

/-- `seed(INIT)` is below 2^W, as INIT is (R140, R144). -/
theorem fits_seed_init {s : State} (hc : s.configValid = true) : fits (s.seed s.init) s.width = true := by
  obtain ⟨-, hW64, -, hinit, -⟩ := (configValid_iff s).mp hc
  unfold State.seed
  split
  · exact fits_reflect hW64 s.init
  · exact (fits_iff_toNat_lt s.init s.width).mpr hinit

theorem octetLoop_eq_foldl (f : Word → Octet → Word) (data : Word) (n : Nat) (r : Word) :
    octetLoop f data n r = ((List.range n).map (lane data)).foldl f r := by
  rw [octetLoop, List.foldl_map]

section Path

variable {s : State} (hs : Inv s) (hc : s.configValid = true) {r : Word} (hr : fits r s.width = true)
include hs hc hr

/-- The octets of APPEND_OCTETS and COMPUTE by whichever path are R161's octet steps. -/
theorem octetLoop_stepOctet (data : Word) (n : Nat) :
    octetLoop s.stepOctet data n r = octetLoop (octetStep s.divisor) data n r := by
  rw [octetLoop_eq_foldl, foldl_stepOctet hs hc hr, ← octetLoop_eq_foldl]

theorem octetLoop_stepOctet_invalidateTable (data : Word) (n : Nat) :
    octetLoop s.invalidateTable.stepOctet data n r = octetLoop s.stepOctet data n r :=
  (octetLoop_stepOctet (inv_invalidateTable hs) hc hr data n).trans (octetLoop_stepOctet hs hc hr data n).symm

theorem groupLoop_stepOctet_invalidateTable (data : Word) (n : Nat) :
    groupLoop s.invalidateTable.stepOctet s.divisor data n r = groupLoop s.stepOctet s.divisor data n r :=
  (groupLoop_stepOctet (inv_invalidateTable hs) hc hr data n).trans (groupLoop_stepOctet hs hc hr data n).symm

end Path

/-! ### A command whose result the path does not change -/

/-- From `s` with its table invalidated `run` leaves what it leaves from `s`, TABLE_VALID apart. -/
def PathFree (run : State → Host.Outcome State Fault Refusal) (s : State) : Prop :=
  ∀ t, run s = .next t → ∃ b, run s.invalidateTable = .next { t with tableValid := b }

/-- Dropping and rejecting a command do not look at the table, so only its effect can; it matters where no check
holds. -/
theorem pathFree_issue {word : Word} {checks : List (Bool × CmdError)} {effect : State → State} {s : State}
    (heffect : firstError checks = none →
      ∃ b, effect s.invalidateTable = { effect s with tableValid := b }) :
    PathFree (issue word checks effect) s := by
  intro t h
  obtain ⟨hlatch, rfl⟩ | ⟨e, hclear, he, rfl⟩ | ⟨hclear, hpass, rfl⟩ := issue_cases h
  · exact ⟨false, issue_dropped (s := s.invalidateTable) hlatch⟩
  · exact ⟨false, issue_rejected (s := s.invalidateTable) hclear he⟩
  · obtain ⟨b, hb⟩ := heffect hpass
    refine ⟨b, ?_⟩
    rw [issue_performed (s := s.invalidateTable) hclear hpass, hb]

/-! ### The commands -/

/-- A command that no check rejects meets each condition whose absence is an error. -/
theorem eq_true_of_firstError_eq_none {checks : List (Bool × CmdError)} (hpass : firstError checks = none)
    {met : Bool} {e : CmdError} (hmem : (!met, e) ∈ checks) : met = true := by
  simpa using (firstError_eq_none_iff checks).mp hpass _ hmem

section Command

variable {s : State}

theorem pathFree_execInit : PathFree execInit s := pathFree_issue fun _ => ⟨false, rfl⟩

theorem pathFree_execInitCustom : PathFree execInitCustom s := pathFree_issue fun _ => ⟨false, rfl⟩

theorem pathFree_execReflect (n : BitVec 7) : PathFree (execReflect n) s := pathFree_issue fun _ => ⟨false, rfl⟩

theorem pathFree_execIllegal (w : Word) : PathFree (execIllegal w) s := pathFree_issue fun _ => ⟨false, rfl⟩

theorem pathFree_execClearError : PathFree execClearError s := by
  rintro _ ⟨⟩
  exact ⟨false, rfl⟩

/-- BUILD_TABLE fills the table afresh; without HAS_TABLE it does nothing. -/
theorem pathFree_execBuildTable : PathFree execBuildTable s := by
  refine pathFree_issue fun _ => ?_
  by_cases hpresent : s.params.hasTable = true
  · exact ⟨true, by simp [hpresent]⟩
  · exact ⟨false, by simp [hpresent, State.invalidateTable]⟩

variable (hs : Inv s) (n : BitVec 7)
include hs

theorem pathFree_execAppendOctets : PathFree (execAppendOctets n) s := by
  refine pathFree_issue fun hpass => ⟨false, ?_⟩
  have hb : s.bound = true := eq_true_of_firstError_eq_none hpass (e := .notBound) (by simp)
  have hloop := octetLoop_stepOctet_invalidateTable hs (hs.bound_valid hb) (hs.bound_fits hb) s.data n.toNat
  exact congrArg (fun r => { s.invalidateTable with remainder := r }) hloop

theorem pathFree_execAppendBits : PathFree (execAppendBits n) s := by
  refine pathFree_issue fun hpass => ⟨false, ?_⟩
  have hb : s.bound = true := eq_true_of_firstError_eq_none hpass (e := .notBound) (by simp)
  have hloop := groupLoop_stepOctet_invalidateTable hs (hs.bound_valid hb) (hs.bound_fits hb) s.data n.toNat
  exact congrArg (fun r => { s.invalidateTable with remainder := r }) hloop

theorem pathFree_execCompute : PathFree (execCompute n) s := by
  refine pathFree_issue fun hpass => ⟨false, ?_⟩
  have hc : s.configValid = true := eq_true_of_firstError_eq_none hpass (e := .configInvalid) (by simp)
  have hloop := octetLoop_stepOctet_invalidateTable hs hc (fits_seed_init hc) s.data n.toNat
  exact congrArg s.invalidateTable.bind hloop

end Command

/-- Every command word: one case per command it can decode to (R106). -/
theorem pathFree_execWrCmd {s : State} (hs : Inv s) (w : Word) : PathFree (execWrCmd w) s := by
  unfold execWrCmd
  cases decodeCommand w with
  | init => exact pathFree_execInit
  | initCustom => exact pathFree_execInitCustom
  | appendOctets n => exact pathFree_execAppendOctets hs n
  | appendBits n => exact pathFree_execAppendBits hs n
  | compute n => exact pathFree_execCompute hs n
  | reflect n => exact pathFree_execReflect n
  | buildTable => exact pathFree_execBuildTable
  | clearError => exact pathFree_execClearError
  | illegal w => exact pathFree_execIllegal w

/-- Settles O60: no command's result depends on the path, which only the appends and COMPUTE take, and there the two
paths agree by the invariant. -/
theorem pathNeverChangesAResult : Obligations.PathNeverChangesAResult :=
  fun w _ t hs => pathFree_execWrCmd hs w t

end Sys2Proof.Machine
end

section
/-! PROOFS. Register reads and the return from an error (spec/46_access_control.md R217 to R219, R222): first the words
CFG, STATUS and CAP as sums of their fields, then what the reads answer, then CLEAR_ERROR. -/

namespace Sys2Proof.Machine

/-! ### Words made of fields (10_state.md R23, R31, R33) -/

/-- A field stands above the `m` bits of the one below it. -/
theorem toNat_append_eq_add {n m : Nat} (x : BitVec n) (y : BitVec m) :
    (x ++ y).toNat = 2 ^ m * x.toNat + y.toNat := by
  rw [BitVec.toNat_append, ← Nat.shiftLeft_add_eq_or_of_lt y.isLt, Nat.shiftLeft_eq, Nat.mul_comm]

@[simp] theorem bit_toNat (b : Bool) : (bit b).toNat = b.toNat := BitVec.toNat_ofBool b

theorem cfgWord_eq_ofNat (s : State) :
    s.cfgWord = BitVec.ofNat 64 (s.cfgWidth.toNat + 256 * s.cfgReflect.toNat) := by
  rw [State.cfgWord, ← BitVec.ofNat_toNat]
  congr 1
  simp only [toNat_append_eq_add, bit_toNat, BitVec.toNat_ofNat]
  omega

theorem statusWord_eq_ofNat (s : State) :
    s.statusWord = BitVec.ofNat 64
      (s.bound.toNat + 2 * s.tableValid.toNat + 4 * s.err.toNat + 256 * s.errCode.toNat) := by
  rw [State.statusWord, ← BitVec.ofNat_toNat]
  congr 1
  simp only [toNat_append_eq_add, bit_toNat, BitVec.toNat_ofNat]
  omega

theorem capWord_eq_ofNat (p : Params) :
    capWord p = BitVec.ofNat 64
      (p.hasTable.toNat + 2 * (decide (p.wideAppend = .refuse)).toNat + 256 * 64) := by
  rw [capWord, ← BitVec.ofNat_toNat]
  congr 1
  simp only [toNat_append_eq_add, bit_toNat, BitVec.toNat_ofNat, Config.maxWidth]
  omega

/-! ### The reads (R217 to R219) -/

/-- Settles O24: each read answers its register and changes nothing else; CFG's word is the sum of its fields. -/
theorem storedRegistersAndCmdRead : Obligations.StoredRegistersAndCmdRead := by
  intro s
  rw [← cfgWord_eq_ofNat]
  exact ⟨rfl, rfl, rfl, rfl, rfl, rfl⟩

/-- Settles O25: each read answers its register and changes nothing else; the words of STATUS and CAP are the sums of
their fields. -/
theorem statusRegistersRead : Obligations.StatusRegistersRead := by
  intro s
  rw [← statusWord_eq_ofNat, ← capWord_eq_ofNat]
  exact ⟨rfl, rfl, rfl, rfl⟩

/-! ### The return (R222, 60_exceptions.md R249) -/

theorem execClearError_eq (s : State) :
    execClearError s =
      .next { s with err := false, errCode := 0#4, errInfo := 0#64, response := some .okayWrite } := rfl

theorem execWrCmd_clearError (s : State) : execWrCmd 0x8#64 s = execClearError s := rfl

/-- A word of opcode 8 with a further bit set has N ≠ 0 or RSVD ≠ 0. -/
theorem not_legal_of_malformed_clearError {w : Word} (hop : w.toNat % 256 = 8) (hw : 8 < w.toNat) :
    legalCommandWord w = false := by
  rw [legalCommandWord_eq_false_iff]
  by_cases hrsvd : 2 ^ 15 ≤ w.toNat
  · exact .inr (.inr (.inl hrsvd))
  · have hn : w.toNat / 256 % 128 ≠ 0 := by omega
    exact .inr (.inr (.inr ⟨hn, .inr (.inr (.inr hop))⟩))

/-- Settles O34: the exact word decodes to CLEAR_ERROR, which clears the latch in every state; a malformed one decodes
to ILLEGAL, which the latch drops. -/
theorem clearErrorIsTheReturn : Obligations.ClearErrorIsTheReturn := by
  intro s
  refine ⟨execClearError_eq s, execWrCmd_clearError s, fun w hop hw => ?_⟩
  rw [exec_wrCmd_of_not_legal (not_legal_of_malformed_clearError hop hw)]
  exact ⟨fun h => execIllegal_of_latched h w, fun h => execIllegal_of_clear h w⟩

end Sys2Proof.Machine
end

section
/-! PROOFS. Rejected and dropped commands (spec/60_exceptions.md R245, R246): first the one form every CMD write has,
then the accesses that are answered whatever the latch holds. -/

namespace Sys2Proof

/-! ### A command carries its word (30_encoding.md R100, R106) -/

/-- With no reserved bit set, OP and N are all of the word. -/
theorem cmdWord_fields {w : Word} (hrsvd : cmdRsvd w = 0#49) : cmdWord (cmdOp w) (cmdN w) = w := by
  have hsmall : w.toNat / 2 ^ 15 = 0 := by simpa using congrArg BitVec.toNat hrsvd
  apply BitVec.eq_of_toNat_eq
  rw [Machine.cmdWord_toNat, cmdOp_toNat, cmdN_toNat]
  omega

/-- No bit of a command word is lost: in each branch of the opcode map OP and N are the command's own, and ILLEGAL
carries the word itself. -/
theorem encode_decodeCommand (w : Word) : encode (decodeCommand w).toInstr = .cmd w := by
  by_cases hrsvd : cmdRsvd w = 0#49
  · have hfields := cmdWord_fields hrsvd
    fun_cases decodeCommand w <;> simp_all +zetaDelta [Command.toInstr, encode]
  · rw [decodeCommand_of_rsvd_ne_zero hrsvd]
    rfl

namespace Machine

/-! ### What a CMD write can do (R245 to R247) -/

/-- Every word but CLEAR_ERROR's issues a command whose errors carry that word and whose effect keeps ERR. -/
theorem execWrCmd_eq_issue {w : Word} (hw : w ≠ 0x8#64) (s : State) :
    ∃ checks effect, execWrCmd w s = issue w checks effect s ∧ (effect s).err = s.err := by
  have hword := encode_decodeCommand w
  unfold execWrCmd
  generalize decodeCommand w = c at hword
  cases c with
  | clearError =>
    cases hword
    exact absurd rfl hw
  | buildTable =>
    cases hword
    refine ⟨_, _, rfl, ?_⟩
    cases s.params.hasTable <;> rfl
  | init | initCustom | appendOctets | appendBits | compute | reflect | illegal =>
    cases hword
    exact ⟨_, _, rfl, rfl⟩

/-- R240: the codes are 1 to 6. -/
theorem code_toNat_range (e : CmdError) : 1 ≤ e.code.toNat ∧ e.code.toNat ≤ 6 := by
  cases e <;> decide

/-- Settles O30: CLEAR_ERROR sets no latch, and every other word issues a command, which sets it only where a check
rejects it. -/
theorem rejectedCommandOnlyLatches : Obligations.RejectedCommandOnlyLatches := by
  intro w s t hclear h ht
  have hw : w ≠ 0x8#64 := by
    rintro rfl
    cases h
    cases ht
  obtain ⟨checks, effect, hissue, heffect⟩ := execWrCmd_eq_issue hw s
  obtain ⟨hlatched, -⟩ | ⟨e, -, -, rfl⟩ | ⟨-, -, rfl⟩ := issue_cases (hissue.symm.trans h)
  case inl => simp [hclear] at hlatched
  case inr.inl => exact ⟨rfl, code_toNat_range e⟩
  case inr.inr => simp [heffect, hclear] at ht

/-! ### What the block answers to an accepted access (20_memory.md R62, 46_access_control.md R216) -/

theorem execWrCmd_answers (w : Word) (s : State) : ∃ t, execWrCmd w s = .next t := by
  by_cases hw : w = 0x8#64
  · rw [hw, execWrCmd_clearError]
    exact ⟨_, execClearError_eq s⟩
  · obtain ⟨checks, effect, hissue, -⟩ := execWrCmd_eq_issue hw s
    rw [hissue]
    exact issue_answers w checks effect s

/-- Every aligned offset outside the reserved range is a register's or the table window's. -/
theorem exec_decodeRead_answers {o : Offset} (halign : o.toNat % 8 = 0) (hres : reservedOffset o = false)
    (t : Transaction) (s : State) : ∃ u, exec ((decodeRead o).getD (.busError t)) s = .next u := by
  fun_cases decodeRead o
  case case14 => -- no register's offset and below the window: misaligned or reserved
    simp only [← BitVec.toNat_inj, BitVec.toNat_ofNat] at *
    simp only [reservedOffset, decide_eq_false_iff_not] at hres
    omega
  all_goals exact ⟨_, rfl⟩

/-- Every aligned offset up to CMD's is a register's. -/
theorem exec_decodeWrite_answers {o : Offset} (halign : o.toNat % 8 = 0) (hwritable : writableOffset o = true)
    (v : Word) (t : Transaction) (s : State) : ∃ u, exec ((decodeWrite o v).getD (.busError t)) s = .next u := by
  fun_cases decodeWrite o v
  case case1 => exact execWrCmd_answers v s
  case case7 => -- no writable register's offset: misaligned or above CMD's
    simp only [← BitVec.toNat_inj, BitVec.toNat_ofNat] at *
    simp only [writableOffset, decide_eq_true_eq] at hwritable
    omega
  all_goals exact ⟨_, rfl⟩

/-- R62: an access of size 8 that is aligned and mapped is answered with OKAY. -/
theorem exec_decode_of_accepted {t : Transaction} (h : acceptedAccess t = true) (s : State) :
    ∃ u, exec (decode (.bus t)) s = .next u := by
  cases t with
  | read o size =>
    obtain ⟨⟨rfl, halign⟩, hres⟩ : (size = .b8 ∧ o.toNat % 8 = 0) ∧ reservedOffset o = false := by
      simpa [acceptedAccess] using h
    rw [decode, decodeTransaction, if_pos ((alignedFull_iff o .b8).mpr ⟨rfl, halign⟩)]
    exact exec_decodeRead_answers halign hres _ s
  | write o size v =>
    obtain ⟨⟨rfl, halign⟩, hwritable⟩ : (size = .b8 ∧ o.toNat % 8 = 0) ∧ writableOffset o = true := by
      simpa [acceptedAccess] using h
    rw [decode, decodeTransaction, if_pos ((alignedFull_iff o .b8).mpr ⟨rfl, halign⟩)]
    exact exec_decodeWrite_answers halign hwritable v _ s

/-- Settles O31: the issue of a command is dropped, while register accesses do not look at the latch. -/
theorem latchedErrorDropsCommands : Obligations.LatchedErrorDropsCommands := by
  intro s h
  refine ⟨fun w hw => ?dropped, fun v => ?stored, fun t ht => exec_decode_of_accepted ht s⟩
  case dropped =>
    obtain ⟨checks, effect, hissue, -⟩ := execWrCmd_eq_issue hw s
    exact hissue.trans (issue_dropped h)
  case stored => exact ⟨_, rfl, rfl, h, rfl, rfl⟩

end Machine
end Sys2Proof
end

section
/-! PROOFS. The encoder and the decoder are inverse to each other (spec/30_encoding.md R100 to R106): first the two
directions for command words, then for bus transactions, then what ILLEGAL and BUS_ERROR stand for. -/

namespace Sys2Proof

/-! ### Command words -/

theorem isCommandOp_iff (op : BitVec 8) :
    isCommandOp op = true ↔ op = 0x01#8 ∨ op = 0x02#8 ∨ op = 0x03#8 ∨ op = 0x04#8 ∨ op = 0x05#8 ∨ op = 0x06#8 ∨
      op = 0x07#8 ∨ op = 0x08#8 := by
  simp only [isCommandOp, decide_eq_true_eq, ← BitVec.toNat_inj, BitVec.toNat_ofNat]
  omega

theorem takesCount_iff (op : BitVec 8) :
    takesCount op = true ↔ op = 0x03#8 ∨ op = 0x04#8 ∨ op = 0x05#8 ∨ op = 0x06#8 := by
  simp only [takesCount, decide_eq_true_eq, ← BitVec.toNat_inj, BitVec.toNat_ofNat]
  omega

/-- ILLEGAL is left to the words that meet no row of the opcode map. -/
theorem not_legal_of_decodeCommand_illegal {w u : Word} (h : decodeCommand w = .illegal u) :
    legalCommandWord w = false := by
  rw [legalCommandWord_eq_fields, ← Bool.not_eq_true]
  simp only [Bool.and_eq_true, Bool.or_eq_true, decide_eq_true_eq, isCommandOp_iff, takesCount_iff]
  revert h
  fun_cases decodeCommand w
  case case1 => tauto -- a reserved bit is set
  case case6 => tauto -- N is not 0 under an opcode that takes no count
  case case11 => tauto -- no opcode of the map
  all_goals nofun

/-! ### Bus transactions -/

/-- The window's entries stand 8 apart from 0x800 on (10_state.md section 2). -/
theorem windowOffset_of_entry {o : Offset} (halign : o.toNat % 8 = 0) (hwindow : 0x800 ≤ o.toNat) :
    0x800#12 + ((((o - 0x800#12) >>> 3).setWidth 8).setWidth 12 <<< 3) = o := by
  apply BitVec.eq_of_toNat_eq
  simp only [BitVec.toNat_add, BitVec.toNat_ofNat, Nat.reducePow, Nat.reduceMod, BitVec.toNat_shiftLeft,
    BitVec.toNat_setWidth, BitVec.toNat_ushiftRight, BitVec.toNat_sub, Nat.reduceSub, Nat.shiftRight_eq_div_pow,
    Nat.shiftLeft_eq, Nat.mod_mul_mod, Nat.add_mod_mod]
  omega

/-- An aligned offset that reads is all in the instruction: a register's own, or the window's by its entry. -/
theorem encode_decodeRead {o : Offset} (halign : o.toNat % 8 = 0) {i : Instr} (h : decodeRead o = some i) :
    encode i = .bus (.read o .b8) := by
  revert h
  fun_cases decodeRead o
  case case13 hwindow =>
    rintro ⟨⟩
    rw [encode, windowOffset_of_entry halign hwindow]
  case case14 => nofun
  all_goals rintro ⟨⟩; subst o; rfl

theorem encode_decodeWrite {o : Offset} {v : Word} {i : Instr} (h : decodeWrite o v = some i) :
    encode i = .bus (.write o .b8 v) := by
  revert h
  fun_cases decodeWrite o v
  case case7 => nofun
  all_goals rintro ⟨⟩; subst o; rfl

theorem encode_decodeTransaction (t : Transaction) : encode (decodeTransaction t) = .bus t := by
  fun_cases decodeTransaction t
  case case1 o size haligned =>
    obtain ⟨rfl, halign⟩ := (alignedFull_iff o size).mp haligned
    cases hread : decodeRead o with
    | none => rfl
    | some i => exact encode_decodeRead halign hread
  case case3 o size v haligned =>
    obtain ⟨rfl, -⟩ := (alignedFull_iff o size).mp haligned
    cases hwrite : decodeWrite o v with
    | none => rfl
    | some i => exact encode_decodeWrite hwrite
  all_goals rfl

/-- Every entry's own offset reads it. -/
theorem decode_encode_rdTable (d : BitVec 8) : decode (encode (.rdTable d)) = .rdTable d := by
  revert d
  decide

/-- Settles O1: a counted command's fields give it back and a fixed word or offset is the instruction's own row, while
ILLEGAL and BUS_ERROR carry what only they can decode from. -/
theorem decodeOfEncodeIsTheInstruction : Obligations.DecodeOfEncodeIsTheInstruction := by
  intro i hi
  cases i with
  | appendOctets n | appendBits n | compute n | reflect n =>
    simp [encode, decode, decodeCommand, Command.toInstr]
  | illegal w =>
    have hw : legalCommandWord w = false := by simpa [wellFormed] using hi
    exact congrArg Command.toInstr (decodeCommand_of_not_legal hw)
  | busError t =>
    have ht : acceptedAccess t = false := by simpa [wellFormed] using hi
    exact decodeTransaction_of_refused ht
  | rdTable d => exact decode_encode_rdTable d
  | _ => rfl

/-- Settles O2: OP and N are a command word's own, and an offset is a register's or an entry's own. -/
theorem encodeOfDecodeIsTheEncoding : Obligations.EncodeOfDecodeIsTheEncoding
  | .cmd w => encode_decodeCommand w
  | .bus t => encode_decodeTransaction t

/-! ### What ILLEGAL and BUS_ERROR stand for (R104, 20_memory.md R62) -/

theorem decode_cmd_eq_illegal_iff (w : Word) : decode (.cmd w) = .illegal w ↔ legalCommandWord w = false := by
  refine ⟨fun h => ?_, fun h => congrArg Command.toInstr (decodeCommand_of_not_legal h)⟩
  simp only [decode] at h
  cases hc : decodeCommand w with
  | illegal u => exact not_legal_of_decodeCommand_illegal hc
  | _ => simp [hc, Command.toInstr] at h

/-- An accepted access is answered, which a BUS_ERROR is not. -/
theorem decode_bus_eq_busError_iff (t : Transaction) :
    decode (.bus t) = .busError t ↔ acceptedAccess t = false := by
  refine ⟨fun h => ?_, decodeTransaction_of_refused⟩
  rw [← Bool.not_eq_true]
  intro haccepted
  obtain ⟨u, hu⟩ := Machine.exec_decode_of_accepted haccepted Machine.State.reset
  simp [h, Machine.exec, Machine.execBusError] at hu

/-- By O2 an ILLEGAL carries the word decoded, a BUS_ERROR the transaction. -/
theorem wellFormed_decode (e : Encoding) : wellFormed (decode e) = true := by
  have hencode := encodeOfDecodeIsTheEncoding e
  cases hi : decode e with
  | illegal w =>
    obtain rfl : .cmd w = e := by rwa [hi] at hencode
    simp [wellFormed, (decode_cmd_eq_illegal_iff w).mp hi]
  | busError t =>
    obtain rfl : .bus t = e := by rwa [hi] at hencode
    simp [wellFormed, (decode_bus_eq_busError_iff t).mp hi]
  | _ => rfl

/-- Settles O3: the decoder's ILLEGAL and BUS_ERROR are the words of R104 and the accesses R62 refuses. -/
theorem decoderSeparatesIllegalAndRefused : Obligations.DecoderSeparatesIllegalAndRefused :=
  ⟨wellFormed_decode, decode_cmd_eq_illegal_iff, decode_bus_eq_busError_iff⟩

/-- Settles O4: each word is fixed, and so is what it decodes to. -/
theorem writtenOutWordsDecode : Obligations.WrittenOutWordsDecode := by
  unfold Obligations.WrittenOutWordsDecode
  decide

end Sys2Proof
end

section
/-! PROOFS. The assembler (spec/30_encoding.md R107): what each statement stands for on the bus. -/

namespace Sys2Proof.Machine

/-- A counted command's word as a number. -/
theorem cmdWord_ofNat (op : BitVec 8) {n : Nat} (hn : n ≤ 127) :
    cmdWord op (BitVec.ofNat 7 n) = BitVec.ofNat 64 (op.toNat + 256 * n) := by
  rw [cmdWord_eq_ofNat, BitVec.toNat_ofNat, Nat.mod_eq_of_lt (by omega)]

theorem countedCmd_of_le {n : Nat} (hn : n ≤ 127) (op : BitVec 8) :
    countedCmd op n = some (writeCmd (BitVec.ofNat 64 (op.toNat + 256 * n))) := by
  rw [countedCmd, if_pos hn, cmdWord_ofNat op hn]

theorem countedCmd_of_gt {n : Nat} (hn : 127 < n) (op : BitVec 8) : countedCmd op n = none :=
  if_neg (by omega)

/-- Entry d of the window as an offset (10_state.md section 2). -/
theorem windowOffset_eq_ofNat (d : BitVec 8) :
    0x800#12 + (d.setWidth 12 <<< 3) = BitVec.ofNat 12 (0x800 + 8 * d.toNat) := by
  apply BitVec.eq_of_toNat_eq
  simp only [BitVec.toNat_add, BitVec.toNat_ofNat, Nat.reducePow, Nat.reduceMod, BitVec.toNat_shiftLeft,
    BitVec.toNat_setWidth, Nat.shiftLeft_eq, Nat.mod_mul_mod, Nat.add_mod_mod]
  omega

/-- Settles O9: a statement without a count stands for a fixed transaction, a counted one for its word as a number. -/
theorem statementsAssemble : Obligations.StatementsAssemble := by
  refine ⟨rfl, rfl, rfl, rfl, fun n hn => ?counted, fun n hn => ?refused, fun v => ?written, ?read, fun d => ?window⟩
  case counted => exact ⟨countedCmd_of_le hn _, countedCmd_of_le hn _, countedCmd_of_le hn _, countedCmd_of_le hn _⟩
  case refused => exact ⟨countedCmd_of_gt hn _, countedCmd_of_gt hn _, countedCmd_of_gt hn _, countedCmd_of_gt hn _⟩
  case written => exact ⟨rfl, rfl, rfl, rfl, rfl, rfl, rfl⟩
  case read => exact ⟨rfl, rfl, rfl, rfl, rfl, rfl, rfl, rfl, rfl, rfl, rfl, rfl⟩
  case window => rw [assemble, windowOffset_eq_ofNat]

end Sys2Proof.Machine
end

section
/-! PROOFS. What an instruction can do, said once for all of them (spec/60_exceptions.md R245 to R247): its checks and
its effect as functions of the instruction, the three outcomes of exec over them, and what each effect leaves unchanged
(10_state.md section 3). The statements on who writes which register follow. -/

namespace Sys2Proof.Machine

/-! ### Checks and effect of an instruction -/

/-- The checks of a command in R247's order; nothing else is checked. -/
def checksOf (i : Instr) (s : State) : List (Bool × CmdError) :=
  match i with
  | .init | .buildTable => [(!s.configValid, .configInvalid)]
  | .initCustom => [(!s.configValid, .configInvalid), (!fits s.data s.width, .initValueTooWide)]
  | .appendOctets n => [(decide (8 < n.toNat), .countRange), (!s.bound, .notBound)]
  | .appendBits n =>
    [(decide (64 < n.toNat), .countRange), (!s.bound, .notBound),
      (decide (s.params.wideAppend = .refuse) && decide (s.width < n.toNat), .wideAppendRefused)]
  | .compute n => [(decide (8 < n.toNat), .countRange), (!s.configValid, .configInvalid)]
  | .reflect n => [(decide (64 < n.toNat), .countRange)]
  | .illegal _ => [(true, .illegalCommand)]
  | _ => []

/-- What an instruction that is neither dropped nor rejected does to the registers; a read does nothing to them. -/
def effectOf (i : Instr) (s : State) : State :=
  match i with
  | .init => s.bind (s.seed s.init)
  | .initCustom => s.bind (s.seed s.data)
  | .appendOctets n => { s with remainder := octetLoop s.stepOctet s.data n.toNat s.remainder }
  | .appendBits n => { s with remainder := groupLoop s.stepOctet s.divisor s.data n.toNat s.remainder }
  | .compute n => s.bind (octetLoop s.stepOctet s.data n.toNat (s.seed s.init))
  | .reflect n => { s with result := reflect s.data n.toNat }
  | .buildTable => { s with table := if s.params.hasTable then filledTable s.divisor else s.table,
                            tableValid := s.params.hasTable || s.tableValid }
  | .clearError => clearLatch s
  | .wrCfg v => { s.unbind.invalidateTable with cfgWidth := v.extractLsb' 0 7, cfgReflect := v.getLsbD 8 }
  | .wrPoly v => { s.unbind.invalidateTable with poly := v }
  | .wrInit v => { s.unbind with init := v }
  | .wrXorout v => { s.unbind with xorout := v }
  | .wrData v => { s with data := v }
  | _ => s

/-- R200, with the absent table memory in the fields. -/
theorem execBuildTable_eq_issue (s : State) :
    execBuildTable s = issue (cmdWord 0x07#8 0#7) (checksOf .buildTable s) (effectOf .buildTable) s := by
  have heffect : (fun s : State =>
      if s.params.hasTable then { s with table := filledTable s.divisor, tableValid := true } else s) =
        effectOf .buildTable := by
    funext s
    cases hpresent : s.params.hasTable <;> simp [effectOf, hpresent]
  rw [execBuildTable, heffect]
  rfl

/-- Every command but CLEAR_ERROR is issued with its checks, its effect and its word. -/
theorem exec_eq_issue {i : Instr} {w : Word} (hi : encode i = .cmd w) (hclear : i ≠ .clearError) (s : State) :
    exec i s = issue w (checksOf i s) (effectOf i) s := by
  cases i with
  | clearError => exact absurd rfl hclear
  | buildTable => cases hi; exact execBuildTable_eq_issue s
  | init | initCustom | appendOctets | appendBits | compute | reflect | illegal => cases hi; rfl
  | _ => cases hi

/-- R216: a CMD write performs the command its word decodes to. -/
theorem exec_wrCmd_eq (w : Word) (s : State) : exec (.wrCmd w) s = exec (decode (.cmd w)) s := by
  simp only [exec, execWrCmd, decode]
  cases decodeCommand w <;> rfl

theorem exec_performed (i : Instr) (s : State) : exec (performed i) s = exec i s := by
  cases i with
  | wrCmd w => exact (exec_wrCmd_eq w s).symm
  | _ => rfl

/-- A performed instruction is never a CMD write: no command word decodes to one. -/
theorem performed_ne_wrCmd (i : Instr) (w : Word) : performed i ≠ .wrCmd w := by
  cases i with
  | wrCmd u =>
    rw [performed, decode]
    cases decodeCommand u <;> nofun
  | _ => nofun

/-- A performed bus access is the instruction itself: a CMD write performs a command. -/
theorem eq_of_performed_eq {i j : Instr} {t : Transaction} (h : performed i = j) (hj : encode j = .bus t) : i = j := by
  cases i with
  | wrCmd w =>
    have hw := encodeOfDecodeIsTheEncoding (.cmd w)
    rw [performed] at h
    rw [h, hj] at hw
    cases hw
  | _ => exact h

/-- Everything an instruction that is answered can do: a command is dropped (R246) or rejected by its first check that
holds (R245, R247), or the effect is had and no check holds. -/
theorem exec_outcomes {i : Instr} {s t : State} (h : exec i s = .next t) :
    (s.err = true ∧ t = { s with response := some .okayWrite }) ∨
    (∃ e w, s.err = false ∧ firstError (checksOf (performed i) s) = some e ∧ encode (performed i) = .cmd w ∧
      t = { raiseCmdError e w s with response := some .okayWrite }) ∨
    (∃ r, firstError (checksOf (performed i) s) = none ∧
      t = { effectOf (performed i) s with response := some r }) := by
  rw [← exec_performed] at h
  have hcmd := performed_ne_wrCmd i
  generalize performed i = j at h hcmd
  cases hj : encode j with
  | cmd w =>
    by_cases hclear : j = .clearError
    · subst hclear
      cases h
      exact .inr (.inr ⟨_, rfl, rfl⟩)
    · rw [exec_eq_issue hj hclear] at h
      obtain ⟨hlatched, ht⟩ | ⟨e, hs, he, ht⟩ | ⟨-, hpass, ht⟩ := issue_cases h
      · exact .inl ⟨hlatched, ht⟩
      · exact .inr (.inl ⟨e, w, hs, he, rfl, ht⟩)
      · exact .inr (.inr ⟨_, hpass, ht⟩)
  | bus a =>
    refine .inr (.inr ?_)
    cases j with
    | wrCmd w => exact absurd rfl (hcmd w)
    | busError => simp [exec, execBusError] at h
    | init | initCustom | appendOctets | appendBits | compute | reflect | buildTable | clearError | illegal =>
      cases hj
    | _ => cases h; exact ⟨_, rfl, rfl⟩

/-! ### Which effect writes a register (10_state.md sections 3 and 4) -/

section Writers

variable {i : Instr} {s : State}

theorem writes_of_effectOf_remainder (h : (effectOf i s).remainder ≠ s.remainder) :
    i = .init ∨ i = .initCustom ∨ (∃ n, i = .appendOctets n) ∨ (∃ n, i = .appendBits n) ∨ ∃ n, i = .compute n := by
  cases i with
  | init | initCustom | appendOctets | appendBits | compute => simp
  | _ => exact absurd rfl h

theorem binds_of_effectOf_bound (hs : s.bound = false) (h : (effectOf i s).bound = true) :
    i = .init ∨ i = .initCustom ∨ ∃ n, i = .compute n := by
  cases i with
  | init | initCustom | compute => simp
  | wrCfg | wrPoly | wrInit | wrXorout => cases h
  | _ => exact absurd (hs.symm.trans h) (by decide)

theorem unbinds_of_effectOf_bound (hs : s.bound = true) (h : (effectOf i s).bound = false) :
    ∃ v, i = .wrCfg v ∨ i = .wrPoly v ∨ i = .wrInit v ∨ i = .wrXorout v := by
  cases i with
  | wrCfg | wrPoly | wrInit | wrXorout => simp
  | init | initCustom | compute => cases h
  | _ => exact absurd (hs.symm.trans h) (by decide)

theorem invalidates_of_effectOf_tableValid (hs : s.tableValid = true) (h : (effectOf i s).tableValid = false) :
    ∃ v, i = .wrCfg v ∨ i = .wrPoly v := by
  cases i with
  | wrCfg | wrPoly => simp
  | buildTable => simp [effectOf, hs] at h
  | _ => exact absurd (hs.symm.trans h) (by decide)

theorem writes_of_effectOf_result (h : (effectOf i s).result ≠ s.result) : ∃ n, i = .reflect n := by
  cases i with
  | reflect n => exact ⟨n, rfl⟩
  | _ => exact absurd rfl h

theorem writes_of_effectOf_errInfo (h : (effectOf i s).errInfo ≠ s.errInfo) : i = .clearError := by
  cases i with
  | clearError => rfl
  | _ => exact absurd rfl h

theorem writes_of_effectOf_table (h : (effectOf i s).table ≠ s.table) : i = .buildTable := by
  cases i with
  | buildTable => rfl
  | _ => exact absurd rfl h

theorem writes_of_effectOf_data (h : (effectOf i s).data ≠ s.data) : ∃ v, i = .wrData v := by
  cases i with
  | wrData v => exact ⟨v, rfl⟩
  | _ => exact absurd rfl h

theorem writes_of_effectOf_cfg
    (h : (effectOf i s).cfgWidth ≠ s.cfgWidth ∨ (effectOf i s).cfgReflect ≠ s.cfgReflect) : ∃ v, i = .wrCfg v := by
  cases i with
  | wrCfg v => exact ⟨v, rfl⟩
  | _ => simp [effectOf] at h

theorem writes_of_effectOf_poly (h : (effectOf i s).poly ≠ s.poly) : ∃ v, i = .wrPoly v := by
  cases i with
  | wrPoly v => exact ⟨v, rfl⟩
  | _ => exact absurd rfl h

theorem writes_of_effectOf_init (h : (effectOf i s).init ≠ s.init) : ∃ v, i = .wrInit v := by
  cases i with
  | wrInit v => exact ⟨v, rfl⟩
  | _ => exact absurd rfl h

theorem writes_of_effectOf_xorout (h : (effectOf i s).xorout ≠ s.xorout) : ∃ v, i = .wrXorout v := by
  cases i with
  | wrXorout v => exact ⟨v, rfl⟩
  | _ => exact absurd rfl h

/-- The build parameters are no register (log 1). -/
@[simp] theorem effectOf_params (i : Instr) (s : State) : (effectOf i s).params = s.params := by cases i <;> rfl

/-- The host's queue is not the block's (log 3). -/
@[simp] theorem effectOf_pending (i : Instr) (s : State) : (effectOf i s).pending = s.pending := by cases i <;> rfl

end Writers

/-! ### Which instruction writes a register -/

section Field

variable {α : Type} (field : State → α) {i : Instr} {s t : State} (h : exec i s = .next t) (hne : field t ≠ field s)
  (hresponse : ∀ s r, field { s with response := r } = field s := by intros; rfl)
  (hlatch : ∀ s e w, field (raiseCmdError e w s) = field s := by intros; rfl)
include h hne hresponse hlatch

/-- Where an instruction changes a register that is neither the answer nor the latch, it is its effect that does. -/
theorem eq_effectOf_of_ne : field t = field (effectOf (performed i) s) := by
  obtain ⟨-, rfl⟩ | ⟨e, w, -, -, -, rfl⟩ | ⟨r, -, rfl⟩ := exec_outcomes h
  case inl => exact absurd (hresponse _ _) hne
  case inr.inl => exact absurd ((hresponse _ _).trans (hlatch _ _ _)) hne
  case inr.inr => exact hresponse _ _

theorem effectOf_ne_of_ne : field (effectOf (performed i) s) ≠ field s :=
  eq_effectOf_of_ne field h hne hresponse hlatch ▸ hne

end Field

section Exec

variable {i : Instr} {s t : State} (h : exec i s = .next t)
include h

/-- The four parameter writes are bus accesses, which perform themselves. -/
theorem parameterWrite_of_unbinds (hs : s.bound = true) (ht : t.bound = false) :
    ∃ v, i = .wrCfg v ∨ i = .wrPoly v ∨ i = .wrInit v ∨ i = .wrXorout v := by
  have heffect := eq_effectOf_of_ne State.bound h (by simp [hs, ht])
  obtain ⟨v, hi⟩ := unbinds_of_effectOf_bound hs (heffect.symm.trans ht)
  exact ⟨v, hi.imp (eq_of_performed_eq · rfl) (.imp (eq_of_performed_eq · rfl)
    (.imp (eq_of_performed_eq · rfl) (eq_of_performed_eq · rfl)))⟩

theorem cfgOrPolyWrite_of_invalidates (hs : s.tableValid = true) (ht : t.tableValid = false) :
    ∃ v, i = .wrCfg v ∨ i = .wrPoly v := by
  have heffect := eq_effectOf_of_ne State.tableValid h (by simp [hs, ht])
  obtain ⟨v, hi⟩ := invalidates_of_effectOf_tableValid hs (heffect.symm.trans ht)
  exact ⟨v, hi.imp (eq_of_performed_eq · rfl) (eq_of_performed_eq · rfl)⟩

theorem cfgWrite_of_cfg_ne (hne : t.cfgWidth ≠ s.cfgWidth ∨ t.cfgReflect ≠ s.cfgReflect) : ∃ v, i = .wrCfg v := by
  obtain ⟨v, hi⟩ := writes_of_effectOf_cfg (hne.imp (effectOf_ne_of_ne State.cfgWidth h ·)
    (effectOf_ne_of_ne State.cfgReflect h ·))
  exact ⟨v, eq_of_performed_eq hi rfl⟩

theorem polyWrite_of_poly_ne (hne : t.poly ≠ s.poly) : ∃ v, i = .wrPoly v :=
  (writes_of_effectOf_poly (effectOf_ne_of_ne State.poly h hne)).imp fun _ hi => eq_of_performed_eq hi rfl

theorem initWrite_of_init_ne (hne : t.init ≠ s.init) : ∃ v, i = .wrInit v :=
  (writes_of_effectOf_init (effectOf_ne_of_ne State.init h hne)).imp fun _ hi => eq_of_performed_eq hi rfl

theorem xoroutWrite_of_xorout_ne (hne : t.xorout ≠ s.xorout) : ∃ v, i = .wrXorout v :=
  (writes_of_effectOf_xorout (effectOf_ne_of_ne State.xorout h hne)).imp fun _ hi => eq_of_performed_eq hi rfl

theorem dataWrite_of_data_ne (hne : t.data ≠ s.data) : ∃ v, i = .wrData v :=
  (writes_of_effectOf_data (effectOf_ne_of_ne State.data h hne)).imp fun _ hi => eq_of_performed_eq hi rfl

/-- R32: ERR_INFO takes the word of the command that is rejected, or is cleared. -/
theorem rejected_or_cleared_of_errInfo_ne (hne : t.errInfo ≠ s.errInfo) :
    (s.err = false ∧ t.err = true ∧ .cmd t.errInfo = encode (performed i)) ∨ performed i = .clearError := by
  obtain ⟨-, rfl⟩ | ⟨e, w, hclear, -, hword, rfl⟩ | ⟨r, -, rfl⟩ := exec_outcomes h
  case inl => exact absurd rfl hne
  case inr.inl => exact .inl ⟨hclear, rfl, hword.symm⟩
  case inr.inr => exact .inr (writes_of_effectOf_errInfo hne)

theorem exec_params : t.params = s.params := by
  by_contra hne
  exact absurd (effectOf_params ..) (effectOf_ne_of_ne State.params h hne)

theorem exec_pending : t.pending = s.pending := by
  by_contra hne
  exact absurd (effectOf_pending ..) (effectOf_ne_of_ne State.pending h hne)

end Exec

/-- Settles O21: where REMAINDER or BOUND changes, it is by the effect of the instruction performed. -/
theorem remainderAndBoundWriters : Obligations.RemainderAndBoundWriters := by
  refine fun i s t h => ⟨fun hne => ?remainder, fun hs ht => ?sets, parameterWrite_of_unbinds h, ?parameter⟩
  case remainder => exact writes_of_effectOf_remainder (effectOf_ne_of_ne State.remainder h hne)
  case sets =>
    have heffect := eq_effectOf_of_ne State.bound h (by simp [hs, ht])
    exact binds_of_effectOf_bound hs (heffect.symm.trans ht)
  case parameter =>
    rintro v (rfl | rfl | rfl | rfl)
    all_goals cases h; exact ⟨rfl, rfl⟩

/-- Settles O22: one effect writes each register, and the latch takes a rejection beside it. -/
theorem oneWriterPerRegister : Obligations.OneWriterPerRegister :=
  fun _ _ _ h =>
    ⟨fun hne => writes_of_effectOf_result (effectOf_ne_of_ne State.result h hne),
      rejected_or_cleared_of_errInfo_ne h,
      fun hne => writes_of_effectOf_table (effectOf_ne_of_ne State.table h hne),
      dataWrite_of_data_ne h, cfgWrite_of_cfg_ne h, polyWrite_of_poly_ne h, initWrite_of_init_ne h,
      xoroutWrite_of_xorout_ne h, exec_params h, exec_pending h⟩

/-! ### One step (20_memory.md R66) -/

theorem step_access {s : State} {t : Transaction} {rest : List Input} (h : s.pending = .access t :: rest) :
    step s = exec (decode (.bus t)) { s with pending := rest } := by
  simp [step, h]

/-- Everything a step that is answered can do: wait, reset, or perform the next transaction. -/
theorem step_outcomes {s t : State} (h : step s = .next t) :
    t = s ∨
    (∃ rest, s.pending = .reset :: rest ∧ t = ({ s with pending := rest } : State).applyReset) ∨
    (∃ a rest, s.pending = .access a :: rest ∧ exec (decode (.bus a)) { s with pending := rest } = .next t) := by
  cases hp : s.pending with
  | nil =>
    rw [step_idle hp] at h
    cases h
    exact .inl rfl
  | cons x rest =>
    cases x with
    | reset =>
      rw [step_reset hp] at h
      cases h
      exact .inr (.inl ⟨rest, rfl, rfl⟩)
    | access a =>
      rw [step_access hp] at h
      exact .inr (.inr ⟨a, rest, rfl, h⟩)

/-- Settles O10: it is the step's equation for a transaction. -/
theorem stepRunsDecodedTransaction : Obligations.StepRunsDecodedTransaction :=
  fun _ _ _ => step_access

/-- Settles O8: BUS_ERROR's meaning, and that a refused access decodes to it. -/
theorem busErrorStopsTheStep : Obligations.BusErrorStopsTheStep := by
  refine fun t s => ⟨raiseBusError_eq t, fun rest hp ht => ?_⟩
  rw [step_access hp, exec_decode_of_refused ht]

/-- Settles O13: the step's equations for an empty queue and for a pulse, which sets all fields at once. -/
theorem idleStepAndResetPulse : Obligations.IdleStepAndResetPulse :=
  ⟨fun _ => step_idle, fun _ _ hp => ⟨_, step_reset hp, rfl, rfl, rfl, rfl, rfl, rfl, rfl, rfl, rfl, rfl, rfl, rfl,
    rfl, rfl, rfl⟩⟩

/-- Settles O15: a transaction is answered where it is accepted and faults where it is not. -/
theorem stepStopsOnlyOnRefusedAccess : Obligations.StepStopsOnlyOnRefusedAccess := by
  intro s
  cases hp : s.pending with
  | nil => simp [step_idle hp]
  | cons x rest =>
    cases x with
    | reset => simp [step_reset hp]
    | access t =>
      rw [step_access hp]
      cases ht : acceptedAccess t with
      | false => simp [exec_decode_of_refused ht, ht]
      | true =>
        obtain ⟨u, hu⟩ := exec_decode_of_accepted ht { s with pending := rest }
        simp [hu, ht]

/-- Settles O26: CAP is of the build parameters, which no instruction and no pulse writes. -/
theorem capabilityIsConstant : Obligations.CapabilityIsConstant := by
  refine ⟨by decide, fun s t h => congrArg capWord ?_⟩
  obtain rfl | ⟨rest, -, rfl⟩ | ⟨a, rest, -, h⟩ := step_outcomes h
  · rfl
  · rfl
  · have hparams := exec_params h
    exact hparams

/-- Settles O20: the write that clears TABLE_VALID is the transaction at the queue's head, whose offset its instruction
gives. -/
theorem tableInvalidationOnlyByCfgPolyReset : Obligations.TableInvalidationOnlyByCfgPolyReset := by
  refine ⟨fun s t h hs ht => ?only, fun s t v h => ?writes, fun s rest hp => ⟨_, step_reset hp, rfl⟩⟩
  case only =>
    obtain rfl | ⟨rest, hp, -⟩ | ⟨a, rest, hp, h⟩ := step_outcomes h
    · simp [hs] at ht
    · exact ⟨rest, .inl hp⟩
    · have hencode := encodeOfDecodeIsTheEncoding (.bus a)
      obtain ⟨v, hi | hi⟩ := cfgOrPolyWrite_of_invalidates h hs ht
      · obtain rfl : .write 0x000#12 .b8 v = a := by simpa [hi, encode] using hencode
        exact ⟨rest, .inr (.inl ⟨v, hp⟩)⟩
      · obtain rfl : .write 0x008#12 .b8 v = a := by simpa [hi, encode] using hencode
        exact ⟨rest, .inr (.inr ⟨v, hp⟩)⟩
  case writes => obtain h | h := h <;> cases h <;> rfl

end Sys2Proof.Machine
end

section
/-! PROOFS. The host's transactions (spec/20_memory.md R60, R66, R67, R71): a CMD write, a placed table word, the run
over the queue, the routing of addresses, and the access laws of reads and register writes. -/

namespace Sys2Proof.Machine

/-! ### A CMD write and a placed table word (46_access_control.md R216) -/

/-- R216: dropped, rejected or performed, a command is answered OKAY. -/
theorem response_of_issue {word : Word} {checks : List (Bool × CmdError)} {effect : State → State} {s t : State}
    (h : issue word checks effect s = .next t) : t.response = some .okayWrite := by
  obtain ⟨-, rfl⟩ | ⟨e, -, -, rfl⟩ | ⟨-, -, rfl⟩ := issue_cases h <;> rfl

/-- Settles O11: CLEAR_ERROR and every issued command answer a next state and OKAY. -/
theorem commandWriteIssuesItsCommand : Obligations.CommandWriteIssuesItsCommand := by
  refine fun w s => ⟨exec_wrCmd_eq w s, ?_⟩
  obtain ⟨t, ht⟩ := execWrCmd_answers w s
  refine ⟨t, ht, ?_⟩
  by_cases hw : w = 0x8#64
  · subst hw
    cases ht
    rfl
  · obtain ⟨checks, effect, hissue, -⟩ := execWrCmd_eq_issue hw s
    exact response_of_issue (hissue.symm.trans ht)

/-- Whatever brings an encoding to the block performs what it decodes to. -/
theorem exec_decode_transaction (e : Encoding) (s : State) :
    exec (decode (.bus e.transaction)) s = exec (decode e) s := by
  cases e with
  | cmd w => exact exec_wrCmd_eq w s
  | bus t => rfl

/-- Settles O12: the placed transaction is the queue's head, and taking it off gives the state back. -/
theorem placedTableWordRunsNext : Obligations.PlacedTableWordRunsNext := by
  intro s nbits w i h
  obtain ⟨e, he, rfl⟩ := Option.map_eq_some_iff.mp h
  calc step (s.withFetchWord nbits w)
      = step (s.withNext e.transaction) := by rw [State.withFetchWord, he]
    _ = exec (decode (.bus e.transaction)) s := step_access (withNext_pending s e.transaction)
    _ = exec (decode e) s := exec_decode_transaction e s

/-! ### A run over the queue (R71, logs 3 and 14) -/

/-- The state with another queue of the host. -/
def State.withQueue (s : State) (queue : List Input) : State := { s with pending := queue }

/-- An outcome with another queue of the host in its next state. -/
def atQueue (queue : List Input) (o : Host.Outcome State Fault Refusal) : Host.Outcome State Fault Refusal :=
  match o with
  | .next t => .next (t.withQueue queue)
  | .fault f => .fault f
  | .refused r => .refused r

theorem checksOf_withQueue (i : Instr) (s : State) (queue : List Input) :
    checksOf i (s.withQueue queue) = checksOf i s := by
  cases i <;> rfl

theorem effectOf_withQueue (i : Instr) (s : State) (queue : List Input) :
    effectOf i (s.withQueue queue) = (effectOf i s).withQueue queue := by
  cases i <;> rfl

theorem issue_withQueue (w : Word) (i : Instr) (s : State) (queue : List Input) :
    issue w (checksOf i (s.withQueue queue)) (effectOf i) (s.withQueue queue) =
      atQueue queue (issue w (checksOf i s) (effectOf i) s) := by
  rw [checksOf_withQueue]
  obtain hs | hs := Bool.eq_false_or_eq_true s.err
  · rw [issue_dropped hs, issue_dropped (s := s.withQueue queue) hs]; rfl
  · cases he : firstError (checksOf i s) with
    | some e => rw [issue_rejected hs he, issue_rejected (s := s.withQueue queue) hs he]; rfl
    | none =>
      rw [issue_performed hs he, issue_performed (s := s.withQueue queue) hs he, effectOf_withQueue]
      rfl

/-- No instruction reads the host's queue or writes it. -/
theorem exec_withQueue (i : Instr) (s : State) (queue : List Input) :
    exec i (s.withQueue queue) = atQueue queue (exec i s) := by
  rw [← exec_performed, ← exec_performed i s]
  have hcmd := performed_ne_wrCmd i
  generalize performed i = j at hcmd
  cases hj : encode j with
  | cmd w =>
    by_cases hclear : j = .clearError
    · subst hclear
      rfl
    · rw [exec_eq_issue hj hclear, exec_eq_issue hj hclear, issue_withQueue]
  | bus a =>
    cases j with
    | wrCmd w => exact absurd rfl (hcmd w)
    | init | initCustom | appendOctets | appendBits | compute | reflect | buildTable | clearError | illegal =>
      cases hj
    | busError t => simp [exec, execBusError, atQueue]
    | _ => rfl

theorem step_withQueue (s : State) (t : Transaction) (queue : List Input) :
    step (s.withQueue (.access t :: queue)) = atQueue queue (exec (decode (.bus t)) s) :=
  exec_withQueue (decode (.bus t)) s queue

/-- A run of one step per transaction at the queue's head, by induction on them. -/
theorem run_withQueue (ts : List Transaction) (rest : List Input) (s : State) :
    Sys2Proof.core.run ts.length (s.withQueue (ts.map Input.access ++ rest)) = performAll ts (s.withQueue rest) := by
  induction ts generalizing s with
  | nil => rfl
  | cons t ts ih =>
    have hstep : Sys2Proof.core.step (s.withQueue ((t :: ts).map Input.access ++ rest)) =
        atQueue (ts.map Input.access ++ rest) (exec (decode (.bus t)) s) := step_withQueue ..
    simp only [List.length_cons, Host.Core.run, hstep, performAll, exec_withQueue]
    cases exec (decode (.bus t)) s with
    | next u => exact ih u
    | fault f => rfl
    | refused r => rfl

/-- Settles O14: each step performs the queue's head and leaves the rest of the queue as it stood. -/
theorem runPerformsPendingInOrder : Obligations.RunPerformsPendingInOrder := run_withQueue

/-! ### The window (R60, 00_scope.md R8) -/

theorem routeAddress_base_add (o : Offset) : routeAddress (Config.base + o.toNat) = some o := by
  have ho : o.toNat < 2 ^ 12 := o.isLt
  rw [routeAddress, if_pos (by omega), Nat.add_sub_cancel_left, BitVec.ofNat_toNat, BitVec.setWidth_eq]

theorem routeAddress_of_outside {a : Nat} (ha : a < Config.base ∨ Config.base + 0xFFF < a) : routeAddress a = none :=
  if_neg (by omega)

/-- Settles O16: BASE is a whole page, and its addresses are the 2^12 offsets. -/
theorem windowRouting : Obligations.WindowRouting :=
  ⟨Nat.mul_mod_right .., routeAddress_base_add, fun _ => routeAddress_of_outside⟩

/-! ### Reads and register writes (R67) -/

/-- A read writes the answer only, and no register it reads is the answer. -/
theorem exec_of_read {i : Instr} {o : Offset} {size : AccessSize} (hi : encode i = .bus (.read o size)) {s t : State}
    (h : exec i s = .next t) :
    (∃ v, t = { s with response := some (.okayRead v) }) ∧ exec i t = .next t := by
  cases i with
  | rdCfg | rdPoly | rdInit | rdXorout | rdData | rdCmd | rdCheck | rdRemainder | rdResult | rdStatus | rdErrInfo
  | rdCap | rdTable =>
    cases h
    exact ⟨⟨_, rfl⟩, rfl⟩
  | busError => simp [exec, execBusError] at h
  | _ => cases hi

/-- A second write of the same value to a register other than CMD finds what the first one left. -/
theorem exec_of_registerWrite {i : Instr} {o : Offset} {v : Word} (hi : encode i = .bus (.write o .b8 v))
    (ho : o ≠ 0x028#12) {s t : State} (h : exec i s = .next t) : exec i t = .next t := by
  cases i with
  | wrCfg | wrPoly | wrInit | wrXorout | wrData =>
    cases h
    rfl
  | wrCmd =>
    cases hi
    exact absurd rfl ho
  | busError => simp [exec, execBusError] at h
  | _ => cases hi

/-- Settles O29: by the instruction the transaction decodes to, whose encoding it is. -/
theorem readsArePureAndWritesIdempotent : Obligations.ReadsArePureAndWritesIdempotent :=
  ⟨fun _ _ _ _ h => exec_of_read (encodeOfDecodeIsTheEncoding _) h,
    fun _ _ _ _ ho h => exec_of_registerWrite (encodeOfDecodeIsTheEncoding _) ho h⟩

/-! ### What a register write stores (41_params_init.md R141) -/

/-- The bits CFG keeps: WIDTH in [6:0] and REFLECT_IO in [8] (10_state.md R23). -/
theorem getLsbD_cfgMask {i : Nat} (hi : i < 64) : (0x17F#64 : Word).getLsbD i = (decide (i < 7) || decide (i = 8)) := by
  revert i
  decide

theorem cfgWord_of_written {v : Word} {s : State} (hwidth : s.cfgWidth = v.extractLsb' 0 7)
    (hreflect : s.cfgReflect = v.getLsbD 8) : s.cfgWord = v &&& 0x17F#64 := by
  apply BitVec.eq_of_getLsbD_eq
  intro i hi
  rw [BitVec.getLsbD_and, getLsbD_cfgMask hi, State.cfgWord, hwidth, hreflect]
  simp only [bit, BitVec.getLsbD_setWidth, BitVec.getLsbD_append, hi]
  obtain h | rfl | rfl | h : i < 7 ∨ i = 7 ∨ i = 8 ∨ 8 < i := by omega
  · simp [h]
  · simp
  · simp
  · have habove : ¬ i < 7 ∧ i ≠ 8 ∧ ¬ i - 7 < 1 ∧ 1 ≤ i - 7 - 1 := by omega
    simp [habove, BitVec.getLsbD_of_ge]

/-- Settles O23: each write is one update of the fields; CFG reads back its two fields, the bits of 0x17F. -/
theorem registerWritesStoreAndUnbind : Obligations.RegisterWritesStoreAndUnbind := by
  refine fun v s => ⟨rfl, fun t h => ?_, rfl, rfl, rfl, rfl⟩
  cases h
  exact congrArg (answerRead · _) (cfgWord_of_written rfl rfl)

end Sys2Proof.Machine
end

section
/-! PROOFS. The invariant (spec/10_state.md R28, R31; 45_table.md R201; 60_exceptions.md R240): it holds at reset, every
effect whose checks pass keeps it, and so does every step. -/

namespace Sys2Proof.Machine

/-! ### At reset -/

/-- Settles O18: nothing is bound or latched, and no table is valid. -/
theorem invariantHoldsAtReset : Obligations.InvariantHoldsAtReset := fun _ =>
  { bound_valid := nofun
    bound_fits := nofun
    latch_code := ⟨fun _ => rfl, fun _ => rfl⟩
    code_known := Nat.zero_le 6
    code_refused := nofun
    latch_info := fun _ => rfl
    table_present := nofun
    table_width := nofun
    table_poly := nofun
    table_content := nofun }

/-- Code 6 is WIDE_APPEND_REFUSED's alone (60_exceptions.md R240). -/
theorem code_eq_six_iff (e : CmdError) : e.code = 6#4 ↔ e = .wideAppendRefused := by
  cases e <;> decide

/-! ### The updates of the state, one lemma each -/

section Updates

variable {s : State} (hs : Inv s)
include hs

/-- The queue is in no clause of the invariant. -/
theorem inv_withQueue (queue : List Input) : Inv (s.withQueue queue) := { hs with }

/-- Nor is the answer. -/
theorem inv_withResponse (r : Option Response) : Inv { s with response := r } := { hs with }

/-- A write to INIT or XOROUT clears BOUND, and the table does not depend on either (R28, 45_table.md R201). -/
theorem inv_reinitialised (init xorout : Word) : Inv { s.unbind with init := init, xorout := xorout } where
  __ := hs
  bound_valid := nofun
  bound_fits := nofun

theorem inv_clearLatch : Inv (clearLatch s) where
  __ := hs
  latch_code := ⟨fun _ => rfl, fun _ => rfl⟩
  code_known := Nat.zero_le 6
  code_refused := nofun
  latch_info := fun _ => rfl

/-- R245: a rejection sets ERR and the code of its cause, code 6 under `refuse` only. -/
theorem inv_raiseCmdError {e : CmdError} (he : e = .wideAppendRefused → s.params.wideAppend = .refuse) (w : Word) :
    Inv (raiseCmdError e w s) where
  __ := hs
  latch_code := by
    have hcode := code_toNat_range e
    simp only [raiseCmdError_err, raiseCmdError_errCode, ← BitVec.toNat_inj, BitVec.toNat_ofNat]
    constructor
    · nofun
    · omega
  code_known := (code_toNat_range e).2
  code_refused := fun h => he ((code_eq_six_iff e).mp h)
  latch_info := nofun

/-- R28: a constructing command binds a valid configuration with a REMAINDER that fits. -/
theorem inv_bind (hc : s.configValid = true) {r : Word} (hr : fits r s.width = true) : Inv (s.bind r) where
  __ := hs
  bound_valid := fun _ => hc
  bound_fits := fun _ => hr

theorem inv_withRemainder {r : Word} (hr : s.bound = true → fits r s.width = true) :
    Inv { s with remainder := r } where
  __ := hs
  bound_fits := hr

/-- R201: a write to CFG or POLY clears BOUND and TABLE_VALID, which are all that the divisor's clauses ask about. -/
theorem inv_reconfigured (width : BitVec 7) (reflected : Bool) (poly : Word) :
    Inv { s.unbind.invalidateTable with cfgWidth := width, cfgReflect := reflected, poly := poly } where
  __ := hs
  bound_valid := nofun
  bound_fits := nofun
  table_present := nofun
  table_width := nofun
  table_poly := nofun
  table_content := nofun

/-- R200: BUILD_TABLE fills the table with T of the current divisor. -/
theorem inv_buildTable (hc : s.configValid = true) : Inv (effectOf .buildTable s) := by
  obtain ⟨hW, hW64, hP⟩ := divisor_of_configValid hc
  cases hpresent : s.params.hasTable with
  | false => simpa [effectOf, hpresent] using hs
  | true =>
    have heffect : effectOf .buildTable s = { s with table := filledTable s.divisor, tableValid := true } := by
      simp [effectOf, hpresent]
    rw [heffect]
    exact { hs with
      table_present := fun _ => hpresent
      table_width := fun _ => ⟨hW, hW64⟩
      table_poly := fun _ => hP
      table_content := fun _ d => filledTable_get s.divisor d }

end Updates

/-! ### What the commands leave in REMAINDER fits (42_append_octets.md R166) -/

theorem fits_seed {s : State} (hW64 : s.width ≤ 64) {v : Word} (hv : fits v s.width = true) :
    fits (s.seed v) s.width = true := by
  unfold State.seed
  split
  · exact fits_reflect hW64 v
  · exact hv

section Loops

variable {s : State} (hs : Inv s) (hc : s.configValid = true) {r : Word} (hr : fits r s.width = true)
include hs hc hr

theorem fits_octetLoop (data : Word) (n : Nat) : fits (octetLoop s.stepOctet data n r) s.width = true := by
  obtain ⟨-, hW64, hP⟩ := divisor_of_configValid hc
  rw [octetLoop_stepOctet hs hc hr, octetLoop_eq_foldl, foldl_octetStep]
  exact fits_foldl_cycle hW64 hP hr _

theorem fits_groupLoop (data : Word) (n : Nat) : fits (groupLoop s.stepOctet s.divisor data n r) s.width = true := by
  obtain ⟨-, hW64, hP⟩ := divisor_of_configValid hc
  rw [groupLoop_stepOctet hs hc hr]
  exact fits_bitLoop hW64 hP hr data n

end Loops

/-! ### Every effect and every step -/

/-- The passed checks give the constructing commands their valid configuration, and INIT_CUSTOM its value's width. -/
theorem inv_effectOf {i : Instr} {s : State} (hs : Inv s) (hpass : firstError (checksOf i s) = none) :
    Inv (effectOf i s) := by
  cases i with
  | init =>
    have hc : s.configValid = true := eq_true_of_firstError_eq_none hpass (e := .configInvalid) (by simp [checksOf])
    exact inv_bind hs hc (fits_seed_init hc)
  | initCustom =>
    have hc : s.configValid = true := eq_true_of_firstError_eq_none hpass (e := .configInvalid) (by simp [checksOf])
    have hdata : fits s.data s.width = true :=
      eq_true_of_firstError_eq_none hpass (e := .initValueTooWide) (by simp [checksOf])
    obtain ⟨-, hW64, -⟩ := divisor_of_configValid hc
    exact inv_bind hs hc (fits_seed hW64 hdata)
  | compute n =>
    have hc : s.configValid = true := eq_true_of_firstError_eq_none hpass (e := .configInvalid) (by simp [checksOf])
    exact inv_bind hs hc (fits_octetLoop hs hc (fits_seed_init hc) s.data n.toNat)
  | appendOctets n =>
    exact inv_withRemainder hs fun hb => fits_octetLoop hs (hs.bound_valid hb) (hs.bound_fits hb) s.data n.toNat
  | appendBits n =>
    exact inv_withRemainder hs fun hb => fits_groupLoop hs (hs.bound_valid hb) (hs.bound_fits hb) s.data n.toNat
  | buildTable =>
    have hc : s.configValid = true := eq_true_of_firstError_eq_none hpass (e := .configInvalid) (by simp [checksOf])
    exact inv_buildTable hs hc
  | clearError => exact inv_clearLatch hs
  | wrCfg v => exact inv_reconfigured hs (v.extractLsb' 0 7) (v.getLsbD 8) s.poly
  | wrPoly v => exact inv_reconfigured hs s.cfgWidth s.cfgReflect v
  | wrInit v => exact inv_reinitialised hs v s.xorout
  | wrXorout v => exact inv_reinitialised hs s.init v
  | _ => exact { hs with }

/-- R243: of all the checks only APPEND_BITS's third raises WIDE_APPEND_REFUSED, under `refuse`. -/
theorem refuse_of_wideAppendRefused {i : Instr} {s : State}
    (h : firstError (checksOf i s) = some .wideAppendRefused) : s.params.wideAppend = .refuse := by
  have hmem := firstError_mem h
  cases i with
  | appendBits n =>
    obtain ⟨hrefuse, -⟩ : s.params.wideAppend = .refuse ∧ s.width < n.toNat := by simpa [checksOf] using hmem
    exact hrefuse
  | _ => simp [checksOf] at hmem

theorem inv_exec {i : Instr} {s t : State} (hs : Inv s) (h : exec i s = .next t) : Inv t := by
  obtain ⟨-, rfl⟩ | ⟨e, w, -, he, -, rfl⟩ | ⟨r, hpass, rfl⟩ := exec_outcomes h
  · exact inv_withResponse hs _
  · exact inv_withResponse (inv_raiseCmdError hs (fun hwide => refuse_of_wideAppendRefused (hwide ▸ he)) w) _
  · exact inv_withResponse (inv_effectOf hs hpass) _

theorem inv_applyReset (s : State) : Inv s.applyReset :=
  inv_withQueue (invariantHoldsAtReset s.params) s.pending

/-- Settles O19: waiting, the pulse and every instruction keep it. -/
theorem everyStepKeepsTheInvariant : Obligations.EveryStepKeepsTheInvariant := by
  intro s t hs h
  obtain rfl | ⟨rest, -, rfl⟩ | ⟨a, rest, -, h⟩ := step_outcomes h
  · exact hs
  · exact inv_applyReset _
  · exact inv_exec (inv_withQueue hs rest) h

end Sys2Proof.Machine
end

section
/-! PROOFS. Which error a command leaves (spec/60_exceptions.md R240, R241, R247): what a CMD write leaves in the latch
is the first of its command's checks that holds, and a legal word's OP and N say which command that is. -/

namespace Sys2Proof.Machine

/-! ### What a CMD write leaves in the latch -/

/-- ERR_CODE after the checks: the code of the first that holds, 0 when none does (R240, R247). -/
def codeOf (checks : List (Bool × CmdError)) : BitVec 4 := (firstError checks).elim 0#4 CmdError.code

@[simp] theorem codeOf_nil : codeOf [] = 0#4 := rfl

@[simp] theorem codeOf_cons (holds : Bool) (e : CmdError) (rest : List (Bool × CmdError)) :
    codeOf ((holds, e) :: rest) = if holds then e.code else codeOf rest := by
  cases holds <;> rfl

/-- No effect sets the latch. -/
theorem effectOf_err {s : State} (hs : s.err = false) (i : Instr) : (effectOf i s).err = false := by
  cases i with
  | clearError => rfl
  | _ => exact hs

theorem effectOf_errCode {s : State} (hs : s.errCode = 0#4) (i : Instr) : (effectOf i s).errCode = 0#4 := by
  cases i with
  | clearError => rfl
  | _ => exact hs

section Latch

variable {w : Word} {s t : State} (hs : s.err = false) (h : exec (.wrCmd w) s = .next t)
include hs h

theorem errCode_of_wrCmd (hcode : s.errCode = 0#4) : t.errCode = codeOf (checksOf (decode (.cmd w)) s) := by
  obtain ⟨hlatched, -⟩ | ⟨e, -, -, he, -, rfl⟩ | ⟨r, hpass, rfl⟩ := exec_outcomes h
  · simp [hs] at hlatched
  · simp only [performed] at he
    simp [codeOf, he]
  · simp only [performed] at hpass
    rw [codeOf, hpass]
    exact effectOf_errCode hcode _

theorem err_of_wrCmd (hpass : firstError (checksOf (decode (.cmd w)) s) = none) : t.err = false := by
  obtain ⟨-, rfl⟩ | ⟨e, -, -, he, -, -⟩ | ⟨r, -, rfl⟩ := exec_outcomes h
  · exact hs
  · cases hpass.symm.trans he
  · exact effectOf_err hs _

end Latch

/-! ### The command of a legal word -/

@[simp] theorem cmdWord_toNat_mod (op : BitVec 8) (n : BitVec 7) : (cmdWord op n).toNat % 256 = op.toNat := by
  rw [cmdWord_toNat]
  omega

@[simp] theorem cmdWord_toNat_div_mod (op : BitVec 8) (n : BitVec 7) :
    (cmdWord op n).toNat / 256 % 128 = n.toNat := by
  rw [cmdWord_toNat]
  omega

theorem legalCommandWord_cmdWord (op : BitVec 8) (n : BitVec 7) :
    legalCommandWord (cmdWord op n) = (isCommandOp op && (takesCount op || decide (n = 0#7))) := by
  simp [legalCommandWord_eq_fields]

theorem fits_eq_false_iff (v : Word) (w : Nat) : fits v w = false ↔ 2 ^ w ≤ v.toNat := by
  rw [← Bool.not_eq_true, fits_iff_toNat_lt, Nat.not_lt]

/-- Settles O32: the checks of each command, with its OP and N read off its word, are the chain's. -/
theorem firstCheckDecidesTheCode : Obligations.FirstCheckDecidesTheCode := by
  intro w s t hinv hs h
  have hencode := encodeOfDecodeIsTheEncoding (.cmd w)
  rw [errCode_of_wrCmd hs h (hinv.latch_code.mp hs)]
  cases hi : decode (.cmd w) <;> rw [hi] at hencode
  case illegal =>
    cases hencode
    simp [checksOf, (decode_cmd_eq_illegal_iff _).mp hi, CmdError.code]
  case init | initCustom | appendOctets | appendBits | compute | reflect | buildTable | clearError =>
    cases hencode
    simp [checksOf, legalCommandWord_cmdWord, isCommandOp, takesCount, fits_eq_false_iff, CmdError.code,
      apply_ite BitVec.toNat]
  all_goals cases hencode

/-- Settles O33: each command's checks are the hypotheses for its opcode, negated. -/
theorem validCommandsNeverFail : Obligations.ValidCommandsNeverFail := by
  intro w s hs hlegal hoctets hbits hconfig hbound hfits hwide
  obtain ⟨t, ht⟩ := execWrCmd_answers w s
  refine ⟨t, ht, err_of_wrCmd hs ht ?_⟩
  have hencode := encodeOfDecodeIsTheEncoding (.cmd w)
  cases hi : decode (.cmd w) <;> rw [hi] at hencode
  case illegal =>
    cases hencode
    simp [(decode_cmd_eq_illegal_iff _).mp hi] at hlegal
  case init | initCustom | appendOctets | compute | reflect | buildTable | clearError =>
    cases hencode
    simp_all [firstError_eq_none_iff, checksOf]
  case appendBits =>
    cases hencode
    obtain hserial | hnarrow := hwide (by simp) <;> simp_all [firstError_eq_none_iff, checksOf]
  all_goals cases hencode

end Sys2Proof.Machine
end

section
/-! PROOFS. The commands one by one (spec/41_params_init.md R142, R143; 42_append_octets.md R163; 43_append_bits.md
R180; 44_check_compute.md R192; 45_table.md R200; 46_access_control.md R223): for each the outcomes its checks leave, and
at last what they answer after reset (70_reset_and_hazards.md R270). -/

namespace Sys2Proof.Machine

section Command

variable {s : State}

/-- R246: while the latch is set every command but CLEAR_ERROR is dropped. -/
theorem exec_command_of_latched {i : Instr} {w : Word} (hi : encode i = .cmd w) (hclear : i ≠ .clearError)
    (h : s.err = true) : exec i s = .next { s with response := some .okayWrite } := by
  rw [exec_eq_issue hi hclear, issue_dropped h]

/-! ### INIT and INIT_CUSTOM -/

/-- Settles O39: INIT's one check leaves three outcomes. -/
theorem initConstructs : Obligations.InitConstructs :=
  fun _ => ⟨exec_command_of_latched rfl nofun, execInit_of_configInvalid, execInit_of_configValid⟩

theorem execInitCustom_of_too_wide (h : s.err = false) (hc : s.configValid = true)
    (hdata : 2 ^ s.width ≤ s.data.toNat) :
    execInitCustom s = .next { s with err := true, errCode := 3#4, errInfo := cmdWord 0x02#8 0#7,
                                      response := some .okayWrite } := by
  have hfits := (fits_eq_false_iff ..).mpr hdata
  rw [execInitCustom, issue_rejected h (e := .initValueTooWide) (by simp [hc, hfits])]
  rfl

theorem execInitCustom_of_fits (h : s.err = false) (hc : s.configValid = true) (hdata : s.data.toNat < 2 ^ s.width) :
    execInitCustom s = .next { s.bind (s.seed s.data) with response := some .okayWrite } := by
  have hfits := (fits_iff_toNat_lt ..).mpr hdata
  rw [execInitCustom, issue_performed h (by simp [hc, hfits])]

/-- Settles O40: INIT_CUSTOM's two checks leave four outcomes. -/
theorem initCustomConstructsFromData : Obligations.InitCustomConstructsFromData :=
  fun _ => ⟨exec_command_of_latched rfl nofun, execInitCustom_of_configInvalid, execInitCustom_of_too_wide,
    execInitCustom_of_fits⟩

/-! ### The appends -/

section Octets

variable {n : BitVec 7}

theorem execAppendOctets_of_count_too_large (h : s.err = false) (hn : 8 < n.toNat) :
    execAppendOctets n s =
      .next { s with err := true, errCode := 5#4, errInfo := BitVec.ofNat 64 (3 + 256 * n.toNat),
                     response := some .okayWrite } := by
  rw [execAppendOctets, issue_rejected h (e := .countRange) (by simp [hn]), cmdWord_eq_ofNat]
  rfl

theorem execAppendOctets_of_not_bound (h : s.err = false) (hn : n.toNat ≤ 8) (hb : s.bound = false) :
    execAppendOctets n s =
      .next { s with err := true, errCode := 4#4, errInfo := BitVec.ofNat 64 (3 + 256 * n.toNat),
                     response := some .okayWrite } := by
  rw [execAppendOctets, issue_rejected h (e := .notBound) (by simp [Nat.not_lt.mpr hn, hb]), cmdWord_eq_ofNat]
  rfl

end Octets

/-- Settles O46: APPEND_OCTETS's two checks leave four outcomes; no octets leave the fold where it began. -/
theorem appendOctetsFoldsTheLanes : Obligations.AppendOctetsFoldsTheLanes :=
  fun _ _ => ⟨exec_command_of_latched rfl nofun, execAppendOctets_of_count_too_large, execAppendOctets_of_not_bound,
    fun h hn hb => execAppendOctets_of_bound h hn hb, fun h hb => execAppendOctets_of_bound h (n := 0#7) (by decide) hb⟩

/-- Settles O48: none of APPEND_BITS's three checks holds. -/
theorem appendBitsWritesRemainder : Obligations.AppendBitsWritesRemainder := by
  intro n s h hn hb hp
  have hwide : (decide (s.params.wideAppend = .refuse) && decide (s.width < n.toNat)) = false := by
    obtain hp | hp := hp
    · simp [hp]
    · simp [Nat.not_lt.mpr hp]
  rw [exec_eq_issue (i := .appendBits n) rfl nofun, issue_performed h
    (by simp [checksOf, Nat.not_lt.mpr hn, hb, hwide])]
  rfl

/-! ### COMPUTE -/

theorem execCompute_of_count_too_large {n : BitVec 7} (h : s.err = false) (hn : 8 < n.toNat) :
    execCompute n s =
      .next { s with err := true, errCode := 5#4, errInfo := BitVec.ofNat 64 (5 + 256 * n.toNat),
                     response := some .okayWrite } := by
  rw [execCompute, issue_rejected h (e := .countRange) (by simp [hn]), cmdWord_eq_ofNat]
  rfl

/-- Settles O54: COMPUTE's two checks leave four outcomes. -/
theorem computeConstructsAndAppends : Obligations.ComputeConstructsAndAppends := by
  refine fun n s => ⟨exec_command_of_latched rfl nofun, execCompute_of_count_too_large, fun h hn hc => ?_,
    fun h hn hc => execCompute_of_configValid h hn hc⟩
  exact (execCompute_of_configInvalid h hc hn).trans (by rw [cmdWord_eq_ofNat]; rfl)

/-! ### BUILD_TABLE -/

theorem execBuildTable_of_configValid (h : s.err = false) (hc : s.configValid = true) :
    execBuildTable s = .next { effectOf .buildTable s with response := some .okayWrite } := by
  rw [execBuildTable_eq_issue, issue_performed h (by simp [checksOf, hc])]

/-- Settles O59: BUILD_TABLE's one check, and in the effect whether the table is built in. -/
theorem buildTableFillsEveryEntry : Obligations.BuildTableFillsEveryEntry := by
  refine fun s => ⟨exec_command_of_latched rfl nofun, execBuildTable_of_configInvalid, fun h hc hpresent => ?filled,
    fun h hc habsent => ?absent⟩
  case filled =>
    refine ⟨filledTable s.divisor, ?_, filledTable_get s.divisor⟩
    exact (execBuildTable_of_configValid h hc).trans (by simp [effectOf, hpresent])
  case absent => exact (execBuildTable_of_configValid h hc).trans (by simp [effectOf, habsent])

/-! ### ILLEGAL -/

/-- Settles O6: ILLEGAL's one check always holds, and the word 0 has no opcode. -/
theorem illegalLatchesTheWord : Obligations.IllegalLatchesTheWord :=
  fun w _ => ⟨fun h => execIllegal_of_clear h w, fun h => execIllegal_of_latched h w, by decide⟩

end Command

/-! ### After reset (70_reset_and_hazards.md R270) -/

theorem reflect_zero_word {w : Nat} (hw : w ≤ 64) : reflect 0#64 w = 0#64 := by
  apply BitVec.eq_of_getLsbD_eq
  intro i _
  simp [getLsbD_reflect hw]

/-- R245: a CMD write that a check rejects latches its own word. -/
theorem exec_wrCmd_of_rejected {s : State} (h : s.err = false) {w : Word} {e : CmdError}
    (he : firstError (checksOf (decode (.cmd w)) s) = some e) :
    exec (.wrCmd w) s = .next { raiseCmdError e w s with response := some .okayWrite } := by
  have hclear : decode (.cmd w) ≠ .clearError := fun hi => by simp [hi, checksOf] at he
  rw [exec_wrCmd_eq, exec_eq_issue (encodeOfDecodeIsTheEncoding (.cmd w)) hclear, issue_rejected h he]

section Counted

variable {n : Nat} (hn : n ≤ 127)
include hn

theorem decode_cmd_appendOctets :
    decode (.cmd (BitVec.ofNat 64 (3 + 256 * n))) = .appendOctets (BitVec.ofNat 7 n) := by
  have hdecode := decodeOfEncodeIsTheInstruction (.appendOctets (BitVec.ofNat 7 n)) rfl
  rwa [encode, cmdWord_ofNat _ hn] at hdecode

theorem decode_cmd_appendBits :
    decode (.cmd (BitVec.ofNat 64 (4 + 256 * n))) = .appendBits (BitVec.ofNat 7 n) := by
  have hdecode := decodeOfEncodeIsTheInstruction (.appendBits (BitVec.ofNat 7 n)) rfl
  rwa [encode, cmdWord_ofNat _ hn] at hdecode

theorem decode_cmd_compute :
    decode (.cmd (BitVec.ofNat 64 (5 + 256 * n))) = .compute (BitVec.ofNat 7 n) := by
  have hdecode := decodeOfEncodeIsTheInstruction (.compute (BitVec.ofNat 7 n)) rfl
  rwa [encode, cmdWord_ofNat _ hn] at hdecode

theorem toNat_count : (BitVec.ofNat 7 n).toNat = n := by
  rw [BitVec.toNat_ofNat, Nat.mod_eq_of_lt (by omega)]

end Counted

/-- The words of the constructing and building commands, with an invalid configuration. -/
theorem exec_wrCmd_of_configInvalid {s : State} (h : s.err = false) (hc : s.configValid = false) {w : Word}
    (hw : w = 0x1#64 ∨ w = 0x2#64 ∨ w = 0x7#64 ∨ ∃ n : Nat, n ≤ 8 ∧ w = BitVec.ofNat 64 (5 + 256 * n)) :
    exec (.wrCmd w) s =
      .next { s with err := true, errCode := 2#4, errInfo := w, response := some .okayWrite } := by
  refine exec_wrCmd_of_rejected h (e := .configInvalid) ?_
  obtain rfl | rfl | rfl | ⟨n, hn, rfl⟩ := hw
  · have hi : decode (.cmd 0x1#64) = .init := rfl
    simp [hi, checksOf, hc]
  · have hi : decode (.cmd 0x2#64) = .initCustom := rfl
    simp [hi, checksOf, hc]
  · have hi : decode (.cmd 0x7#64) = .buildTable := rfl
    simp [hi, checksOf, hc]
  · have hn127 : n ≤ 127 := by omega
    simp [decode_cmd_compute hn127, checksOf, toNat_count hn127, Nat.not_lt.mpr hn, hc]

/-- The appends' words, unbound. -/
theorem exec_wrCmd_of_not_bound {s : State} (h : s.err = false) (hb : s.bound = false) {w : Word}
    (hw : (∃ n : Nat, n ≤ 8 ∧ w = BitVec.ofNat 64 (3 + 256 * n)) ∨
      ∃ n : Nat, n ≤ 64 ∧ w = BitVec.ofNat 64 (4 + 256 * n)) :
    exec (.wrCmd w) s =
      .next { s with err := true, errCode := 4#4, errInfo := w, response := some .okayWrite } := by
  refine exec_wrCmd_of_rejected h (e := .notBound) ?_
  obtain ⟨n, hn, rfl⟩ | ⟨n, hn, rfl⟩ := hw <;> have hn127 : n ≤ 127 := by omega
  · simp [decode_cmd_appendOctets hn127, checksOf, toNat_count hn127, Nat.not_lt.mpr hn, hb]
  · simp [decode_cmd_appendBits hn127, checksOf, toNat_count hn127, Nat.not_lt.mpr hn, hb]

/-- R206: a window that is not read through to the table reads 0. -/
theorem execRdTable_of_no_table {s : State} (h : s.params.hasTable = false ∨ s.tableValid = false) (d : BitVec 8) :
    execRdTable d s = .next { s with response := some (.okayRead 0#64) } := by
  have hpath : s.tablePath = false := by simpa [State.tablePath, imp_iff_not_or] using h
  rw [execRdTable, State.tableWindow, hpath]
  rfl

/-- Settles O17: with width 0 the configuration is invalid, and nothing is bound; the rest is read off the state. -/
theorem resetStateAndFirstCommands : Obligations.ResetStateAndFirstCommands := by
  rintro p s rfl
  refine ⟨⟨rfl, rfl, rfl, rfl, rfl, rfl, rfl, rfl, rfl, rfl, rfl, rfl, rfl⟩, ?check, ?status, fun d => ?window, rfl,
    fun w => exec_wrCmd_of_configInvalid rfl rfl, fun w => exec_wrCmd_of_not_bound rfl rfl, fun n hn => ?reflect, rfl,
    fun v => rfl⟩
  case check => exact congrArg (answerRead · _) BitVec.xor_self
  case status => exact congrArg (answerRead · _) ((statusWord_eq_ofNat _).trans rfl)
  case window => exact execRdTable_of_no_table (.inr rfl) d
  case reflect =>
    rw [exec, execReflect_of_count_le rfl hn]
    simp only [State.reset, reflect_zero_word hn]

end Sys2Proof.Machine
end

section
/-! PROOFS. The bounds of the engine and the table function (spec/42_append_octets.md R166, 45_table.md R202, R206):
engine values below 2^W, the laws of T by linearity, and the window that reads it. -/

namespace Sys2Proof.Machine

theorem fits_zero (w : Nat) : fits 0#64 w = true := by
  simp [fits]

/-- Settles O44: every loop of the engine is a fold of the cycle, which keeps below 2^W. -/
theorem engineStaysBelowTwoToTheWidth : Obligations.EngineStaysBelowTwoToTheWidth := by
  intro D r _ hW64 hP hr
  have hr := (fits_iff_toNat_lt r D.width).mpr hr
  simp only [← fits_iff_toNat_lt]
  exact ⟨fits_cycle hW64 hP hr, fits_octetStep hW64 hP hr, fits_bitLoop hW64 hP hr⟩

/-! ### The table function (R202) -/

theorem tableRemainder_xor (D : Divisor) (d1 d2 : Octet) :
    tableRemainder D (d1 ^^^ d2) = tableRemainder D d1 ^^^ tableRemainder D d2 := by
  rw [tableRemainder, tableRemainder, tableRemainder, ← octetStep_xor, BitVec.xor_self]

/-- A linear function is 0 at 0. -/
@[simp] theorem tableRemainder_zero (D : Divisor) : tableRemainder D 0#8 = 0#64 := by
  have hxor := tableRemainder_xor D 0#8 0#8
  rwa [BitVec.xor_self, BitVec.xor_self] at hxor

theorem foldl_cycle_false (D : Divisor) (r : Word) :
    (List.range 8).foldl (fun r _ => cycle D r false) r = octetStep D r 0#8 := by
  simp [octetStep, octetBit]

section Octet

variable {D : Divisor} (hW : 1 ≤ D.width) (hW64 : D.width ≤ 64) (hP : fits D.poly D.width = true)
include hW hW64 hP

/-- A remainder whose retiring octet is d and whose rest is 0 becomes T(d) in eight cycles with zero input. -/
theorem foldl_cycle_false_eq_tableRemainder {r : Word} {d : Octet} (hr : fits r D.width = true)
    (hms : msByte D r = d) (hls : lsBytes D r = 0#64) :
    (List.range 8).foldl (fun r _ => cycle D r false) r = tableRemainder D d := by
  rw [foldl_cycle_false, ← bytewiseFormIsTheOctetStep D r 0#8 hW hW64 hP hr, octetStepBytewise, hms, hls,
    BitVec.xor_zero, BitVec.xor_zero]

variable (h8 : 8 ≤ D.width) (d : Octet)
include h8

/-- Not reflected: d enters at the high end of the register. -/
theorem tableRemainder_eq_of_not_reflected (hrf : D.reflected = false) :
    tableRemainder D d =
      (List.range 8).foldl (fun r _ => cycle D r false) (d.setWidth 64 <<< (D.width - 8)) := by
  refine (foldl_cycle_false_eq_tableRemainder hW hW64 hP ?fits ?ms ?ls).symm
  case fits =>
    rw [fits_iff_getLsbD]
    intro i hi
    simp [BitVec.getLsbD_of_ge d (i - (D.width - 8)) (by omega)]
  case ms =>
    apply BitVec.eq_of_getLsbD_eq
    intro i hi
    have hpos : D.width - 8 + i < 64 ∧ i < 64 := by omega
    simp [msByte, hrf, h8, hi, hpos, -BitVec.getLsbD_eq_getElem]
  case ls =>
    apply BitVec.eq_of_getLsbD_eq
    intro i hi
    obtain h | h | h : i < 8 ∨ D.width ≤ i ∨ i - 8 < D.width - 8 := by omega
    · simp [lsBytes, hrf, Nat.not_lt.mpr h8, h]
    · simp [lsBytes, hrf, Nat.not_lt.mpr h8, Nat.not_lt.mpr h]
    · simp [lsBytes, hrf, Nat.not_lt.mpr h8, show ¬ D.width ≤ i - 8 + 8 by omega]

/-- Reflected: d enters at the low end. -/
theorem tableRemainder_eq_of_reflected (hrf : D.reflected = true) :
    tableRemainder D d = (List.range 8).foldl (fun r _ => cycle D r false) (d.setWidth 64) := by
  refine (foldl_cycle_false_eq_tableRemainder hW hW64 hP ?fits ?ms ?ls).symm
  case fits =>
    rw [fits_iff_getLsbD]
    intro i hi
    simp [BitVec.getLsbD_of_ge d i (by omega)]
  case ms =>
    apply BitVec.eq_of_getLsbD_eq
    intro i hi
    have hi64 : i < 64 := by omega
    simp [msByte, hrf, hi, hi64, -BitVec.getLsbD_eq_getElem]
  case ls =>
    apply BitVec.eq_of_getLsbD_eq
    intro i _
    simp [lsBytes, hrf, Nat.not_lt.mpr h8, BitVec.getLsbD_of_ge]

end Octet

/-- Settles O58: the laws of T follow from the octet step's linearity and its per-byte form. -/
theorem tableFunctionLaws : Obligations.TableFunctionLaws :=
  fun D hW hW64 hP => ⟨fun _ => rfl, tableRemainder_zero D, tableRemainder_xor D,
    fun d => (fits_iff_toNat_lt _ _).mp (fits_octetStep hW64 hP (fits_zero _) d),
    fun hrf h8 d => tableRemainder_eq_of_not_reflected hW hW64 hP h8 d hrf,
    fun hrf h8 d => tableRemainder_eq_of_reflected hW hW64 hP h8 d hrf⟩

/-! ### The window (R206) -/

theorem execRdTable_of_table {s : State} (hpresent : s.params.hasTable = true) (hvalid : s.tableValid = true)
    (d : BitVec 8) :
    execRdTable d s = .next { s with response := some (.okayRead (s.table[d.toNat]'d.isLt)) } := by
  have hpath := (tablePath_iff s).mpr ⟨hpresent, hvalid⟩
  rw [execRdTable, State.tableWindow, if_pos hpath, answerRead_eq]

/-- T(0) = 0, and a table that is not read reads 0 too. -/
theorem execRdTable_zero {s : State} (hs : Inv s) :
    execRdTable 0#8 s = .next { s with response := some (.okayRead 0#64) } := by
  by_cases hvalid : s.tableValid = true
  · rw [execRdTable_of_table (hs.table_present hvalid) hvalid, hs.table_content hvalid, tableRemainder_zero]
  · exact execRdTable_of_no_table (.inr (Bool.not_eq_true _ ▸ hvalid)) 0#8

/-- Settles O28: the path decides what the window reads, and no offset of it is writable. -/
theorem tableWindowRead : Obligations.TableWindowRead := by
  refine fun d s => ⟨fun hpresent hvalid => execRdTable_of_table hpresent hvalid d,
    fun h => execRdTable_of_no_table h d, execRdTable_zero, fun v => ?_⟩
  have hoffset : (BitVec.ofNat 12 (0x800 + 8 * d.toNat)).toNat = 0x800 + 8 * d.toNat := by
    rw [BitVec.toNat_ofNat, Nat.mod_eq_of_lt (by omega)]
  exact exec_decode_of_refused ((acceptedAccess_write_eq_false_iff ..).mpr (.inr (.inr (by omega)))) s

end Sys2Proof.Machine
end

section
/-! PROOFS. Runs of a few transactions (spec/42_append_octets.md R164; 43_append_bits.md R184; 95_test_vectors.md L1-6;
30_encoding.md R108): what each command leaves when the host brings it, and then the runs put together. -/

namespace Sys2Proof.Machine

/-! ### Appends of octets (R163, R164) -/

/-- The state after the first n lanes of DATA were appended. -/
def State.afterLanes (s : State) (n : Nat) : State :=
  { s with remainder := octetLoop s.stepOctet s.data n s.remainder, response := some .okayWrite }

theorem exec_writeCmd_appendOctets {s : State} (h : s.err = false) (hb : s.bound = true) {n : Nat} (hn : n ≤ 8) :
    exec (decode (.bus (writeCmd (BitVec.ofNat 64 (3 + 256 * n))))) s = .next (s.afterLanes n) := by
  have hcount := toNat_ofNat_of_le_eight hn
  have hexec : exec (decode (.cmd (BitVec.ofNat 64 (3 + 256 * n)))) s = .next (s.afterLanes n) := by
    rw [decode_cmd_appendOctets (by omega), exec, execAppendOctets_of_bound h (by rwa [hcount]) hb, hcount,
      State.afterLanes]
  exact (exec_wrCmd_eq ..).trans hexec

theorem lane_shiftRight (data : Word) (n i : Nat) : lane (data >>> (8 * n)) i = lane data (n + i) := by
  apply BitVec.eq_of_getLsbD_eq
  intro k hk
  simp [lane, hk, Nat.mul_add, Nat.add_assoc, -BitVec.getLsbD_eq_getElem]

/-- R164 of the loop: the lanes from n1 on are those of DATA shifted down. -/
theorem octetLoop_add (f : Word → Octet → Word) (data : Word) (n1 n2 : Nat) (r : Word) :
    octetLoop f data (n1 + n2) r = octetLoop f (data >>> (8 * n1)) n2 (octetLoop f data n1 r) := by
  simp only [octetLoop, List.range_add, List.foldl_append, List.foldl_map, lane_shiftRight]

/-- Settles O47: both runs step over the same lanes in the same order. -/
theorem octetChunkInvariance : Obligations.OctetChunkInvariance := by
  intro s t n1 n2 h hb hn ht
  rw [performAll_cons_next (exec_writeCmd_appendOctets h hb hn)] at ht
  cases ht
  refine ⟨((s.afterLanes n1).afterData (s.data >>> (8 * n1))).afterLanes n2, ?run, ?same, hb, h⟩
  case run =>
    rw [performAll_cons_next (exec_writeCmd_appendOctets h hb (by omega)), performAll_cons_next (exec_writeData ..),
      performAll_cons_next (exec_writeCmd_appendOctets (s := (s.afterLanes n1).afterData _) h hb (by omega)),
      performAll_nil]
  case same => exact (octetLoop_add s.stepOctet s.data n1 n2 s.remainder).symm

/-! ### An octet by its bits (R184) -/

/-- One bit as the word the host writes to DATA. -/
def bitWord (b : Bool) : Word := if b then 1#64 else 0#64

theorem getLsbD_bitWord (b : Bool) : (bitWord b).getLsbD 0 = b := by
  cases b <;> rfl

/-- A group of one bit has no octet, so neither path of R204 plays a part. -/
theorem groupLoop_one (f : Word → Octet → Word) (D : Divisor) (data r : Word) :
    groupLoop f D data 1 r = cycle D r (data.getLsbD 0) := by
  cases hrf : D.reflected <;> simp [groupLoop, groupBit, hrf]

/-- The state after one bit was written to DATA and appended. -/
def State.afterBit (s : State) (b : Bool) : State :=
  { s with data := bitWord b, remainder := cycle s.divisor s.remainder b, response := some .okayWrite }

section Bit

variable {s : State} (h : s.err = false) (hb : s.bound = true) (hW : 1 ≤ s.width)
include h hb hW

theorem performAll_singleBit (b : Bool) (rest : List Transaction) :
    performAll (.write 0x020#12 .b8 (bitWord b) :: writeCmd 0x104#64 :: rest) s = performAll rest (s.afterBit b) := by
  have hcycle : groupLoop (s.afterData (bitWord b)).stepOctet s.divisor (bitWord b) 1 s.remainder =
      cycle s.divisor s.remainder b := by rw [groupLoop_one, getLsbD_bitWord]
  have happend : exec (decode (.bus (writeCmd 0x104#64))) (s.afterData (bitWord b)) = .next (s.afterBit b) := by
    rw [State.afterBit, ← hcycle]
    exact (exec_wrCmd_eq ..).trans (appendBitsWritesRemainder 1#7 (s.afterData _) h (by decide) hb (.inr hW))
  rw [performAll_cons_next (exec_writeData ..), performAll_cons_next happend]

/-- Single bits appended one after another: one cycle each. -/
theorem performAll_singleBits (bits : List Bool) :
    ∃ t, performAll (bits.flatMap fun b => [.write 0x020#12 .b8 (bitWord b), writeCmd 0x104#64]) s = .next t ∧
      t.remainder = bits.foldl (cycle s.divisor) s.remainder ∧ t.err = false := by
  induction bits generalizing s with
  | nil => exact ⟨s, rfl, rfl, h⟩
  | cons b bits ih =>
    obtain ⟨t, ht, hremainder, herr⟩ := ih (s := s.afterBit b) h hb hW
    exact ⟨t, (performAll_singleBit h hb hW b _).trans ht, hremainder, herr⟩

end Bit

theorem lane_setWidth_zero (o : Octet) : lane (o.setWidth 64) 0 = o := by
  apply BitVec.eq_of_getLsbD_eq
  intro i hi
  have hi64 : i < 64 := by omega
  simp [lane, hi, hi64, -BitVec.getLsbD_eq_getElem]

/-- Settles O52: an octet step is a fold of the cycle over the octet's stream, which the single bits are. -/
theorem eightBitsAreOneOctet : Obligations.EightBitsAreOneOctet := by
  intro s o hs h hb
  obtain ⟨hW, -, -⟩ := divisor_of_configValid (hs.bound_valid hb)
  obtain ⟨t, ht, hremainder, herr⟩ := performAll_singleBits h hb hW (octetStream s.cfgReflect o)
  refine ⟨t, (s.afterData (o.setWidth 64)).afterLanes 1, ?bits, ?octet, ?same, herr, h⟩
  case bits =>
    rw [octetStream, List.flatMap_map] at ht
    exact ht
  case octet =>
    rw [performAll_cons_next (exec_writeData ..)]
    exact performAll_cons_next (exec_writeCmd_appendOctets (s := s.afterData _) h hb (n := 1) (by decide)) []
  case same =>
    have hstep : ((s.afterData (o.setWidth 64)).afterLanes 1).remainder = s.stepOctet s.remainder o :=
      congrArg (s.stepOctet s.remainder) (lane_setWidth_zero o)
    rw [hremainder, hstep, stepOctet_eq_octetStep hs (hs.bound_valid hb) (hs.bound_fits hb), octetStep_eq_foldl]
    rfl

/-! ### A custom seed (R143, L1-6) -/

/-- The state after DATA was taken as the initial value. -/
def State.afterInitCustom (s : State) : State := { s.bind (s.seed s.data) with response := some .okayWrite }

theorem seed_zero {s : State} (hW64 : s.width ≤ 64) : s.seed 0#64 = 0#64 := by
  rw [State.seed, reflect_zero_word hW64, ite_self]

theorem cycle_zero_true (D : Divisor) : cycle D 0#64 true = orientedPoly D := by
  simp [cycle_eq, shiftUp, retiring]

theorem exec_writeCmd_initCustom {s : State} (h : s.err = false) (hc : s.configValid = true)
    (hdata : s.data.toNat < 2 ^ s.width) :
    exec (decode (.bus (writeCmd 0x2#64))) s = .next s.afterInitCustom :=
  execInitCustom_of_fits h hc hdata

/-- Settles O53: the register is 0, so its one cycle adds the polynomial. -/
theorem oneBitLeavesThePolynomial : Obligations.OneBitLeavesThePolynomial := by
  intro s h hc
  obtain ⟨hW, hW64, -⟩ := divisor_of_configValid hc
  refine ⟨(s.afterData 0#64).afterInitCustom.afterBit true, ?run, ?polynomial, h⟩
  case run =>
    rw [performAll_cons_next (exec_writeData ..),
      performAll_cons_next (exec_writeCmd_initCustom (s := s.afterData 0#64) h hc (Nat.two_pow_pos _))]
    exact performAll_singleBit (s := (s.afterData 0#64).afterInitCustom) h rfl hW true []
  case polynomial =>
    calc cycle s.divisor (s.seed 0#64) true
        = cycle s.divisor 0#64 true := by rw [seed_zero hW64]
      _ = orientedPoly s.divisor := cycle_zero_true _

/-! ### Save and restore (R108) -/

/-- `crc.restore` from the write of DATA on: REMAINDER is the seed of the value written. -/
theorem performStmts_restoreLast {s : State} (h : s.err = false) (hc : s.configValid = true) {v : Word}
    (hv : fits v s.width = true) :
    performStmts (pseudoRestoreLast v) s = some (.next (s.afterData v).afterInitCustom) := by
  have hdata := (fits_iff_toNat_lt ..).mp hv
  rw [pseudoRestoreLast, performStmts_cons_next rfl (exec_writeData ..),
    performStmts_cons_next rfl (exec_writeCmd_initCustom (s := s.afterData v) h hc hdata)]
  rfl

theorem execWrCmd_reflect (n : BitVec 7) (s : State) : execWrCmd (cmdWord 0x06#8 n) s = execReflect n s := by
  simp [execWrCmd, decodeCommand]

/-- The state after `crc.reflectv v, n`. -/
def State.afterReflectv (s : State) (v : Word) (n : Nat) : State :=
  { s with data := v, result := reflect v n, response := some (.okayRead (reflect v n)) }

theorem performStmts_reflectv {s : State} (h : s.err = false) (v : Word) {n : Nat} (hn : n ≤ 64) :
    performStmts (pseudoReflectv v n) s = some (.next (s.afterReflectv v n)) := by
  have hcount : (BitVec.ofNat 7 n).toNat = n := toNat_count (by omega)
  have hword : assemble (.reflect n) = some (writeCmd (cmdWord 0x06#8 (BitVec.ofNat 7 n))) :=
    if_pos (by omega)
  have hexec := execReflect_of_count_le (s := s.afterData v) (n := BitVec.ofNat 7 n) h (by rwa [hcount])
  rw [hcount] at hexec
  have hcmd := (exec_writeCmd (cmdWord 0x06#8 (BitVec.ofNat 7 n)) (s.afterData v)).trans
    ((execWrCmd_reflect (BitVec.ofNat 7 n) _).trans hexec)
  rw [pseudoReflectv, performStmts_cons_next rfl (exec_writeData ..), performStmts_cons_next hword hcmd]
  rfl

/-- Settles O57: INIT_CUSTOM reflects the value written, which is x reflected, or takes x itself. -/
theorem restoreSetsTheRemainder : Obligations.RestoreSetsTheRemainder := by
  intro s x h hc hx
  obtain ⟨-, hW64, -⟩ := divisor_of_configValid hc
  have hx := (fits_iff_toNat_lt ..).mpr hx
  cases hrf : s.cfgReflect with
  | false =>
    refine ⟨s, _, x, rfl, rfl, performStmts_restoreLast h hc hx, ?_, rfl, h⟩
    exact if_neg (by simp [State.afterData, hrf])
  | true =>
    refine ⟨_, _, reflect x s.width, performStmts_reflectv h x hW64, rfl,
      performStmts_restoreLast (s := s.afterReflectv x s.width) h hc (fits_reflect hW64 x), ?_, rfl, h⟩
    exact (if_pos hrf).trans (reflect_reflect_of_fits hW64 x hx)

end Sys2Proof.Machine
end

section
/-! PROOFS. The engine as polynomial division over GF(2) (spec/00_scope.md R12, 42_append_octets.md R160): a register is
a polynomial in either orientation, one cycle multiplies it by x and adds x^W for a message bit, up to a multiple of the
generator, and a sequence of cycles follows by induction on the message. -/

namespace Sys2Proof.Machine

open Polynomial

/-- A coefficient of GF(2) as a polynomial. -/
noncomputable def bitPoly (b : Bool) : (ZMod 2)[X] := if b then 1 else 0

theorem bitPoly_xor (a b : Bool) : bitPoly (a ^^ b) = bitPoly a + bitPoly b := by
  cases a <;> cases b <;> simp [bitPoly, CharTwo.add_self_eq_zero]

/-- The polynomial of the first n coefficients of a sequence. -/
noncomputable def coeffPoly (n : Nat) (c : Nat → Bool) : (ZMod 2)[X] :=
  ∑ i ∈ Finset.range n, bitPoly (c i) * X ^ i

/-- The generator x^W + P. -/
noncomputable def generator (D : Divisor) : (ZMod 2)[X] := X ^ D.width + coeffPoly D.width D.poly.getLsbD

/-- The coefficient of x^i that a register holds: bit i, or bit W − 1 − i when reflected. -/
def registerCoeff (D : Divisor) (r : Word) (i : Nat) : Bool :=
  if D.reflected then r.getLsbD (D.width - 1 - i) else r.getLsbD i

/-- The remainder a register holds, as a polynomial. -/
noncomputable def registerPoly (D : Divisor) (r : Word) : (ZMod 2)[X] := coeffPoly D.width (registerCoeff D r)

/-- A message's polynomial, its first bit the highest coefficient. -/
noncomputable def messagePoly (bits : List Bool) : (ZMod 2)[X] :=
  ∑ k ∈ Finset.range bits.length, bitPoly (bits.getD k false) * X ^ (bits.length - 1 - k)

theorem messagePoly_cons (b : Bool) (bits : List Bool) :
    messagePoly (b :: bits) = bitPoly b * X ^ bits.length + messagePoly bits := by
  rw [messagePoly, List.length_cons, Finset.sum_range_succ', add_comm]
  congr 1
  refine Finset.sum_congr rfl fun k _ => ?_
  have hexp : bits.length + 1 - 1 - (k + 1) = bits.length - 1 - k := by omega
  rw [List.getD_cons_succ, hexp]

/-! ### Sequences of coefficients -/

theorem bitPoly_mul (b : Bool) (p : (ZMod 2)[X]) : bitPoly b * p = if b then p else 0 := by
  cases b <;> simp [bitPoly]

theorem coeffPoly_congr {n : Nat} {c1 c2 : Nat → Bool} (h : ∀ i < n, c1 i = c2 i) :
    coeffPoly n c1 = coeffPoly n c2 :=
  Finset.sum_congr rfl fun i hi => by rw [h i (Finset.mem_range.mp hi)]

theorem coeffPoly_xor (n : Nat) (c1 c2 : Nat → Bool) :
    coeffPoly n (fun i => c1 i ^^ c2 i) = coeffPoly n c1 + coeffPoly n c2 := by
  simp only [coeffPoly, bitPoly_xor, add_mul, Finset.sum_add_distrib]

theorem coeffPoly_and (n : Nat) (a : Bool) (c : Nat → Bool) :
    coeffPoly n (fun i => a && c i) = bitPoly a * coeffPoly n c := by
  cases a <;> simp [coeffPoly, bitPoly]

/-- A shift up by one is multiplication by x, without the coefficient that leaves the register. -/
theorem coeffPoly_shift (c : Nat → Bool) {n : Nat} (hn : 1 ≤ n) :
    coeffPoly n (fun i => decide (1 ≤ i) && c (i - 1)) = X * coeffPoly n c + bitPoly (c (n - 1)) * X ^ n := by
  obtain ⟨m, rfl⟩ := Nat.exists_eq_add_of_le' hn
  have hleft : coeffPoly (m + 1) (fun i => decide (1 ≤ i) && c (i - 1)) = X * coeffPoly m c := by
    simp [coeffPoly, Finset.sum_range_succ', bitPoly_mul, Finset.mul_sum, pow_succ']
  have hright : coeffPoly (m + 1) c = coeffPoly m c + bitPoly (c m) * X ^ m := Finset.sum_range_succ ..
  calc coeffPoly (m + 1) (fun i => decide (1 ≤ i) && c (i - 1))
      = X * coeffPoly m c + (bitPoly (c m) * X ^ (m + 1) + bitPoly (c m) * X ^ (m + 1)) := by
        rw [hleft, CharTwo.add_self_eq_zero, add_zero]
    _ = X * coeffPoly (m + 1) c + bitPoly (c m) * X ^ (m + 1) := by
        rw [hright]
        ring

/-! ### One cycle -/

section Cycle

variable {D : Divisor} (hW : 1 ≤ D.width) (hW64 : D.width ≤ 64) {r : Word} (hr : fits r D.width = true)
include hW hW64 hr

/-- R160 in coefficients: a shift up by one, and the polynomial when the retiring coefficient differs from b. -/
theorem registerCoeff_cycle (b : Bool) {i : Nat} (hi : i < D.width) :
    registerCoeff D (cycle D r b) i =
      ((decide (1 ≤ i) && registerCoeff D r (i - 1)) ^^
        ((registerCoeff D r (D.width - 1) ^^ b) && D.poly.getLsbD i)) := by
  simp only [registerCoeff, getLsbD_cycle, getLsbD_shiftUp, retiring, orientedPoly]
  cases hrf : D.reflected
  case false =>
    have hi64 : i < 64 := by omega
    simp [hi, hi64, -BitVec.getLsbD_eq_getElem]
  case true =>
    have hrev : D.width - 1 - i < D.width ∧ D.width - 1 - (D.width - 1 - i) = i := by omega
    cases i with
    | zero =>
      have htop : r.getLsbD (1 + (D.width - 1)) = false := (fits_iff_getLsbD r D.width).mp hr _ (by omega)
      simp [getLsbD_reflect hW64, htop, hi, -BitVec.getLsbD_eq_getElem]
    | succ i =>
      have hpos : 1 + (D.width - 1 - (i + 1)) = D.width - 1 - i := by omega
      simp [getLsbD_reflect hW64, hrev, hpos, -BitVec.getLsbD_eq_getElem]

/-- x times the remainder plus x^W times the bit, up to a multiple of the generator. -/
theorem registerPoly_cycle (b : Bool) :
    registerPoly D (cycle D r b) = X * registerPoly D r + X ^ D.width * bitPoly b +
      bitPoly (registerCoeff D r (D.width - 1) ^^ b) * generator D := by
  rw [registerPoly, coeffPoly_congr fun i hi => registerCoeff_cycle hW hW64 hr b hi, coeffPoly_xor,
    coeffPoly_shift _ hW, coeffPoly_and, generator, registerPoly, bitPoly_xor]
  have hcancel : bitPoly b + bitPoly b = 0 := CharTwo.add_self_eq_zero _
  linear_combination (-(X ^ D.width)) * hcancel

end Cycle

/-! ### A sequence of cycles -/

/-- By induction on the message: each bit multiplies by x what the bits before it left. -/
theorem generator_dvd_foldl_cycle {D : Divisor} (hW : 1 ≤ D.width) (hW64 : D.width ≤ 64)
    (hP : fits D.poly D.width = true) (bits : List Bool) {r : Word} (hr : fits r D.width = true) :
    generator D ∣ X ^ bits.length * registerPoly D r + X ^ D.width * messagePoly bits -
      registerPoly D (bits.foldl (cycle D) r) := by
  induction bits generalizing r with
  | nil => simp [messagePoly]
  | cons b bits ih =>
    have hrest := ih (fits_cycle hW64 hP hr b)
    have hsplit : X ^ (b :: bits).length * registerPoly D r + X ^ D.width * messagePoly (b :: bits) -
          registerPoly D ((b :: bits).foldl (cycle D) r) =
        X ^ bits.length * registerPoly D (cycle D r b) + X ^ D.width * messagePoly bits -
            registerPoly D (bits.foldl (cycle D) (cycle D r b)) -
          X ^ bits.length * bitPoly (registerCoeff D r (D.width - 1) ^^ b) * generator D := by
      rw [registerPoly_cycle hW hW64 hr, messagePoly_cons, List.length_cons, List.foldl_cons]
      ring
    rw [hsplit]
    exact dvd_sub hrest (dvd_mul_left ..)

/-! ### The registers as R12 reads them -/

theorem registerPoly_of_not_reflected {D : Divisor} (hrf : D.reflected = false) (r : Word) :
    registerPoly D r = ∑ i ∈ Finset.range D.width, if r.getLsbD i then X ^ i else 0 := by
  simp only [registerPoly, registerCoeff, coeffPoly, bitPoly_mul, hrf, Bool.false_eq_true, if_false]

/-- Counted from the other end, bit i is the coefficient of x^(W−1−i). -/
theorem registerPoly_of_reflected {D : Divisor} (hrf : D.reflected = true) (r : Word) :
    registerPoly D r = ∑ i ∈ Finset.range D.width, if r.getLsbD i then X ^ (D.width - 1 - i) else 0 := by
  rw [registerPoly, coeffPoly, ← Finset.sum_range_reflect]
  refine Finset.sum_congr rfl fun i hi => ?_
  have hrev : D.width - 1 - (D.width - 1 - i) = i := by have := Finset.mem_range.mp hi; omega
  rw [registerCoeff, if_pos hrf, hrev, bitPoly_mul]

/-- Settles O42: both orientations hold the same coefficients, and each fold of the cycle is the division. -/
theorem engineIsPolynomialDivision : Obligations.EngineIsPolynomialDivision := by
  intro W P r bits hW hW64 hP hr G message msbLeft lsbLeft
  have hgenerator (D : Divisor) (hDW : D.width = W) (hDP : D.poly = P) : generator D = G := by
    simp only [generator, coeffPoly, bitPoly_mul, hDW, hDP, G]
  have hmessage : messagePoly bits = message := by simp only [messagePoly, bitPoly_mul, message]
  have hmsb := generator_dvd_foldl_cycle (D := { width := W, reflected := false, poly := P }) hW hW64 hP bits hr
  have hlsb := generator_dvd_foldl_cycle (D := { width := W, reflected := true, poly := P }) hW hW64 hP bits hr
  rw [hgenerator _ rfl rfl, hmessage, registerPoly_of_not_reflected rfl, registerPoly_of_not_reflected rfl] at hmsb
  rw [hgenerator _ rfl rfl, hmessage, registerPoly_of_reflected rfl, registerPoly_of_reflected rfl] at hlsb
  exact ⟨hmsb, hlsb⟩

end Sys2Proof.Machine
end
